-- ==== Sys2Proof/Word.lean ====
section
/-! DEFINITION. The word types of the core: bit vectors for what the spec treats as bits. -/

namespace Sys2Proof

/-- The bus and PHY word, `DATA_W` = 32 bits (`00_scope.md` section 4). -/
abbrev Word := BitVec 32

/-- One byte beat on the 8 data lanes (`00_scope.md` section 7). -/
abbrev Byte := BitVec 8

/-- The 48-bit command word, `CA_W` = 48 (`30_encoding.md` R81). -/
abbrev CommandWord := BitVec 48

end Sys2Proof
end

