-- ==== Sys2Proof/Config.lean ====
section
/-! DEFINITION. What a build of the core fixes: the source's literals, the record of build parameters,
and the free values (opaque constants) that stand for what the spec leaves undefined. -/

namespace Sys2Proof.Config

/-- `CMD_CYCLES`: the command window in system cycles (`00_scope.md` section 4). -/
def cmdCycles : Nat := 4

/-- `TIMEOUT_CYCLES`: the bound on one wait for the device (`00_scope.md` section 4). -/
def timeoutCycles : Nat := 128

/-- `BURST_MAX`: words per chip-select window (`00_scope.md` section 4). -/
def burstMax : Nat := 512

/-- `SYNC_STAGES`: synchroniser depth (`46_cdc_queue.md` R260, R262). -/
def syncStages : Nat := 2

/-- `DMA_BURST_DEFAULT`: the reset value of `burst_size` (`10_state.md` R23). -/
def dmaBurstDefault : Word := 256

/-- The default of `WRITE_LATENCY` (`42_protocol_fsm.md` R154). -/
def writeLatencyDefault : Nat := 11

/-- The default of `RESET_STRETCH` (`46_cdc_queue.md` R274). -/
def resetStretchDefault : Nat := 4

/-- The default of `DELAY_TAP_MAX` (`92_eei_decisions.md` D18). -/
def delayTapMaxDefault : Nat := 127

/-- FREE VALUE: the word the requester is taken to receive with the `n`-th forced acknowledgment
(`93_implementation_defined.md` U1, `44_bus_adapter.md` R200). Log entry 5. -/
opaque undefinedReadData (n : Nat) : Word

/-- FREE VALUE: what pointer register number `slot` of queue `queue` holds after its unclean reset number
`generation` (`46_cdc_queue.md` R269, `93_implementation_defined.md` U4). Log entry 6. -/
opaque freePointer (queue generation slot : Nat) : Nat

/-- FREE VALUE: what entry `index` of queue `queue` holds when no push has written it since power-on or since
unclean reset number `generation` (`10_state.md` R27, `93_implementation_defined.md` U4, U10). Log entry 6. -/
opaque freeEntry (queue generation index : Nat) : Nat

/-- FREE VALUE: whether reset number `number` of a side of queue `queue` is part of a clean flush (`46_cdc_queue.md`
R268, R269), as the platform knows from its configuration and the queue does not. Log entry 6. -/
opaque flushVouched (queue number : Nat) : Bool

end Sys2Proof.Config

namespace Sys2Proof

/-- The build-time parameters of one platform (`00_scope.md` section 4). They stand in the state so that a statement
about every state is a statement about every build; no step changes them. Log entry 2. -/
structure Params where
  /-- `WRITE_LATENCY`, 1 to 256. -/
  writeLatency : Nat
  /-- `EXT_SYNC` of the writer engine. -/
  extSyncWriter : Bool
  /-- `EXT_SYNC` of the reader engine. -/
  extSyncReader : Bool
  /-- `RESET_STRETCH`, at least `SYNC_STAGES`. -/
  resetStretch : Nat
  /-- `DELAY_TAP_MAX`. -/
  delayTapMax : Nat
  /-- `CTRL_BUS_BASE`: the byte address of the controller's bus port in the platform's map. -/
  ctrlBusBase : BitVec 32
  /-- `CSR_BASE` of the writer engine. -/
  csrBaseWriter : BitVec 32
  /-- `CSR_BASE` of the reader engine. -/
  csrBaseReader : BitVec 32
  deriving DecidableEq, Repr

/-- The build that `State.reset` has: the spec's defaults where it gives them, and a model's choice where the
parameter is OPEN without a default. Log entry 2. -/
def Params.default : Params where
  writeLatency := Config.writeLatencyDefault
  extSyncWriter := false
  extSyncReader := false
  resetStretch := Config.resetStretchDefault
  delayTapMax := Config.delayTapMaxDefault
  ctrlBusBase := 0
  csrBaseWriter := 0
  csrBaseReader := 0x20

end Sys2Proof
end

