-- ==== Sys2Proof/Syntax.lean ====
section
/-! DEFINITION. The operations of the core as syntax: one constructor of `Instr` per row of spec/opcode_table.json
(`30_encoding.md` R101), and the shape of an encoded operation (a code on a port, with the operands its port carries). -/

namespace Sys2Proof

/-- The two streaming DMA engines (`45_dma_engines.md` R210): the writer reads memory and writes its stream, the reader
reads its stream and writes memory. -/
inductive EngineId where
  | writer
  | reader
  deriving DecidableEq, Repr

/-- The operands of a bus request that are not part of its code (`30_encoding.md` R85): the word address as the bus
carries it (only `adr[20:0]` is significant, `20_memory.md` R51), the byte-lane mask and the write data. -/
structure BusOperands where
  adr : BitVec 32
  sel : BitVec 4
  datW : Word
  deriving DecidableEq, Repr

/-- What the device-side pins carry in one system cycle, after the input delay (`40_phy_shift.md` R115):
the byte sampled at each of the four beats and the strobe level sampled with it. -/
structure Pins where
  d0 : Byte
  d1 : Byte
  d2 : Byte
  d3 : Byte
  s0 : Bool
  s1 : Bool
  s2 : Bool
  s3 : Bool
  deriving DecidableEq, Repr

/-- One operation of the core: one constructor per row of spec/opcode_table.json, in the table's order. -/
inductive Instr where
  /-- CA.RD. `41_command_encoder.md` R131: the command word of a read window, `ROWCOL` = row, `COLLO` = col. -/
  | caRd (row : BitVec 19) (col : BitVec 2)
  /-- CA.WR. `41_command_encoder.md` R132: the command word of a write window. -/
  | caWr (row : BitVec 19) (col : BitVec 2)
  /-- BUS.NOP. `44_bus_adapter.md` R197: no request; the two fields are the pattern's don't-care bits. -/
  | busNop (we : Bool) (cti : BitVec 3)
  /-- BUS.RD.CLASSIC. `44_bus_adapter.md` R192. -/
  | busRdClassic (o : BusOperands)
  /-- BUS.RD.BURST. `44_bus_adapter.md` R194. -/
  | busRdBurst (o : BusOperands)
  /-- BUS.RD.END. `44_bus_adapter.md` R192. -/
  | busRdEnd (o : BusOperands)
  /-- BUS.RD.RSVD.001. `44_bus_adapter.md` R196: a read with the reserved cycle type 0b001. -/
  | busRdRsvd001 (o : BusOperands)
  /-- BUS.RD.RSVD.011. `44_bus_adapter.md` R196: a read with the reserved cycle type 0b011. -/
  | busRdRsvd011 (o : BusOperands)
  /-- BUS.RD.RSVD.100. `44_bus_adapter.md` R196: a read with the reserved cycle type 0b100. -/
  | busRdRsvd100 (o : BusOperands)
  /-- BUS.RD.RSVD.101. `44_bus_adapter.md` R196: a read with the reserved cycle type 0b101. -/
  | busRdRsvd101 (o : BusOperands)
  /-- BUS.RD.RSVD.110. `44_bus_adapter.md` R196: a read with the reserved cycle type 0b110. -/
  | busRdRsvd110 (o : BusOperands)
  /-- BUS.WR.CLASSIC. `44_bus_adapter.md` R193. -/
  | busWrClassic (o : BusOperands)
  /-- BUS.WR.BURST. `44_bus_adapter.md` R195. -/
  | busWrBurst (o : BusOperands)
  /-- BUS.WR.END. `44_bus_adapter.md` R193. -/
  | busWrEnd (o : BusOperands)
  /-- BUS.WR.RSVD.001. `44_bus_adapter.md` R196: a write with the reserved cycle type 0b001. -/
  | busWrRsvd001 (o : BusOperands)
  /-- BUS.WR.RSVD.011. `44_bus_adapter.md` R196: a write with the reserved cycle type 0b011. -/
  | busWrRsvd011 (o : BusOperands)
  /-- BUS.WR.RSVD.100. `44_bus_adapter.md` R196: a write with the reserved cycle type 0b100. -/
  | busWrRsvd100 (o : BusOperands)
  /-- BUS.WR.RSVD.101. `44_bus_adapter.md` R196: a write with the reserved cycle type 0b101. -/
  | busWrRsvd101 (o : BusOperands)
  /-- BUS.WR.RSVD.110. `44_bus_adapter.md` R196: a write with the reserved cycle type 0b110. -/
  | busWrRsvd110 (o : BusOperands)
  /-- CSR.WR.START_ADDRESS. `45_dma_engines.md` R212. -/
  | csrWrStartAddress (e : EngineId) (v : Word)
  /-- CSR.WR.TRANSFER_SIZE. `45_dma_engines.md` R213. -/
  | csrWrTransferSize (e : EngineId) (v : Word)
  /-- CSR.WR.BURST_SIZE. `45_dma_engines.md` R214. -/
  | csrWrBurstSize (e : EngineId) (v : Word)
  /-- CSR.WR.DONE. `45_dma_engines.md` R215. -/
  | csrWrDone (e : EngineId) (v : Word)
  /-- CSR.WR.ENABLE. `45_dma_engines.md` R216. -/
  | csrWrEnable (e : EngineId) (v : Word)
  /-- CSR.WR.RESET. `45_dma_engines.md` R217. -/
  | csrWrReset (e : EngineId) (v : Word)
  /-- CSR.WR.UNDEF. `45_dma_engines.md` R219: idx 6 or 7 (`WellFormed` checks it). -/
  | csrWrUndef (e : EngineId) (idx : BitVec 3) (v : Word)
  /-- CSR.RD.START_ADDRESS. `45_dma_engines.md` R218. -/
  | csrRdStartAddress (e : EngineId)
  /-- CSR.RD.TRANSFER_SIZE. `45_dma_engines.md` R218. -/
  | csrRdTransferSize (e : EngineId)
  /-- CSR.RD.BURST_SIZE. `45_dma_engines.md` R218. -/
  | csrRdBurstSize (e : EngineId)
  /-- CSR.RD.DONE. `45_dma_engines.md` R218. -/
  | csrRdDone (e : EngineId)
  /-- CSR.RD.ENABLE. `45_dma_engines.md` R218. -/
  | csrRdEnable (e : EngineId)
  /-- CSR.RD.RESET. `45_dma_engines.md` R218. -/
  | csrRdReset (e : EngineId)
  /-- CSR.RD.UNDEF. `45_dma_engines.md` R219: idx 6 or 7 (`WellFormed` checks it). -/
  | csrRdUndef (e : EngineId) (idx : BitVec 3)
  /-- DLY.LOAD. `40_phy_shift.md` R118; the two don't-care bits are `dly_move` and `dly_dir`. -/
  | dlyLoad (move dir : Bool)
  /-- DLY.INC. `40_phy_shift.md` R118. -/
  | dlyInc
  /-- DLY.DEC. `40_phy_shift.md` R118. -/
  | dlyDec
  /-- DLY.HOLD. `40_phy_shift.md` R118; the don't-care bit is `dly_dir`. -/
  | dlyHold (dir : Bool)
  /-- FSM.IDLE. `42_protocol_fsm.md` R142, R143. -/
  | fsmIdle
  /-- FSM.CMD. `42_protocol_fsm.md` R144, R145. -/
  | fsmCmd
  /-- FSM.RWDS_WAIT. `42_protocol_fsm.md` R146, R147. -/
  | fsmRwdsWait
  /-- FSM.READ_START. `42_protocol_fsm.md` R148, R149. -/
  | fsmReadStart
  /-- FSM.READ_ACK. `42_protocol_fsm.md` R150. -/
  | fsmReadAck
  /-- FSM.READ_BURST. `42_protocol_fsm.md` R151, R152. -/
  | fsmReadBurst
  /-- FSM.LATENCY_WRITE. `42_protocol_fsm.md` R153, R154. -/
  | fsmLatencyWrite
  /-- FSM.W_PREP. `42_protocol_fsm.md` R155. -/
  | fsmWPrep
  /-- FSM.WRITE_BURST. `42_protocol_fsm.md` R156, R157. -/
  | fsmWriteBurst
  /-- FSM.WRITE_FINISH. `42_protocol_fsm.md` R158. -/
  | fsmWriteFinish
  /-- FSM.TIMEOUT. `42_protocol_fsm.md` R160. -/
  | fsmTimeout
  /-- FSM.CLEANUP. `42_protocol_fsm.md` R159. -/
  | fsmCleanup
  /-- ENG.IDLE. `45_dma_engines.md` R230, R231. -/
  | engIdle (e : EngineId)
  /-- ENG.ACTIVE. `45_dma_engines.md` R232, R234, R235. -/
  | engActive (e : EngineId)
  /-- STRM.XFER. `30_encoding.md` R89: valid and ready. -/
  | strmXfer (e : EngineId) (data : Word)
  /-- STRM.UNDERFLOW. `45_dma_engines.md` R244: valid without ready. -/
  | strmUnderflow (e : EngineId) (data : Word)
  /-- STRM.OVERFLOW. `45_dma_engines.md` R243: ready without valid. -/
  | strmOverflow (e : EngineId) (data : Word)
  /-- STRM.IDLE. `30_encoding.md` R89: neither. -/
  | strmIdle (e : EngineId) (data : Word)
  /-- CDCW.RESET. `46_cdc_queue.md` R266; valid and ready are the pattern's don't-care bits. -/
  | cdcwReset (q : Nat) (valid ready : Bool) (data : Nat)
  /-- CDCW.PUSH. `46_cdc_queue.md` R265. -/
  | cdcwPush (q : Nat) (data : Nat)
  /-- CDCW.STALL. `46_cdc_queue.md` R265. -/
  | cdcwStall (q : Nat) (data : Nat)
  /-- CDCW.IDLE. `46_cdc_queue.md` R265; ready is the pattern's don't-care bit. -/
  | cdcwIdle (q : Nat) (ready : Bool) (data : Nat)
  /-- CDCR.RESET. `46_cdc_queue.md` R267; valid and ready are the pattern's don't-care bits. -/
  | cdcrReset (q : Nat) (valid ready : Bool)
  /-- CDCR.POP. `46_cdc_queue.md` R270. -/
  | cdcrPop (q : Nat)
  /-- CDCR.WAIT. `46_cdc_queue.md` R270. -/
  | cdcrWait (q : Nat)
  /-- CDCR.EMPTY. `46_cdc_queue.md` R270; ready is the pattern's don't-care bit. -/
  | cdcrEmpty (q : Nat) (ready : Bool)
  /-- PHY.SHIFTOUT. `40_phy_shift.md` R112: `shiftOut(w, m)`. -/
  | phyShiftout (w : Word) (m : BitVec 4)
  /-- PHY.IDLE. `40_phy_shift.md` R113: no `shiftOut` call. -/
  | phyIdle
  /-- PHY.SAMPLEIN. `40_phy_shift.md` R115: "Operands: none"; what it samples is on the pins. The unit argument carries
  nothing. -/
  | phySamplein (p : Unit)
  /-- DMA.START.LOCAL. `45_dma_engines.md` R220: `enable_pulse` = 1. -/
  | dmaStartLocal (e : EngineId)
  /-- DMA.START.EXT. `45_dma_engines.md` R221: `start` = 1. -/
  | dmaStartExt (e : EngineId)
  /-- PULSE.SEND. `46_cdc_queue.md` R272: `pulse_in` = pulse. -/
  | pulseSend (x : Nat) (pulse : Bool)
  /-- PULSE.SYNC. `46_cdc_queue.md` R273, R274. -/
  | pulseSync (x : Nat)
  /-- SYS.RESET. `70_reset_and_hazards.md` R320: `rst` = 1. -/
  | sysReset
  deriving DecidableEq, Repr

/-- The events of format `EVT`, which have no bit pattern (`30_encoding.md` R103). -/
inductive Event where
  | shiftOut
  | phyIdle
  | sampleIn
  | startLocal (e : EngineId)
  | startExt (e : EngineId)
  | pulseSend (x : Nat)
  | pulseSync (x : Nat)
  | sysReset
  deriving DecidableEq, Repr

/-- The interface an operation appears on: the format of `30_encoding.md` and, where the core has several of one
interface, which one. The formats share code values, so a code means nothing without its port. Log entry 1. -/
inductive Port where
  | ca
  | bus
  | csr (e : EngineId)
  | dly
  | fsm
  | eng (e : EngineId)
  | strm (e : EngineId)
  | cdcw (q : Nat)
  | cdcr (q : Nat)
  | evt (v : Event)
  deriving DecidableEq, Repr

/-- The operands that stand beside a code on its port (`30_encoding.md` R85, R90, R89, R102, R103). -/
inductive Operands where
  | none
  | bus (o : BusOperands)
  | data (v : Word)
  | payload (n : Nat)
  | call (w : Word) (m : BitVec 4)
  | level (b : Bool)
  deriving DecidableEq, Repr

/-- An encoded operation: the code on a port, as a number (bit 0 least significant), and the operands there. -/
structure OpWord where
  port : Port
  code : Nat
  operands : Operands
  deriving DecidableEq, Repr

/-- Why a code on a port is no operation. -/
inductive DecodeError where
  /-- The code has a bit above the format's width. -/
  | codeTooWide
  /-- A command word with a reserved bit set or the burst-type bit clear (`30_encoding.md` R83). -/
  | notACommandWord
  /-- An FSM code 12 to 15 (`30_encoding.md` R96). -/
  | noSuchState
  /-- An event has no code (`30_encoding.md` R103). -/
  | eventWithCode
  /-- The operands are not those the operation has. -/
  | wrongOperands
  deriving DecidableEq, Repr

end Sys2Proof
end

