-- ==== Sys2Proof/WellFormed.lean ====
section
/-! DEFINITION. Which terms of `Instr` stand for an operation of the table: the typed operands leave one check. -/

namespace Sys2Proof

/-- The undefined register indices of an engine's surface are 6 and 7 (`30_encoding.md` R94; pattern `x11i`). -/
def Instr.WellFormed : Instr → Bool
  | .csrWrUndef _ idx _ => idx == 6 || idx == 7
  | .csrRdUndef _ idx => idx == 6 || idx == 7
  | _ => true

end Sys2Proof
end

