-- ==== Sys2Proof/Decode.lean ====
section
/-! DEFINITION. The decoder (total, rejecting by name) and, after it, the encoder, both written from the encoding tables
of `30_encoding.md`, and the reading of spec/opcode_table.json's bit numbering. -/

namespace Sys2Proof

/-- A read's or a write's bus operation by cycle-type code, `30_encoding.md` R86 and R87: `LINEAR_BURST` = 0b010,
`END_OF_BURST` = 0b111, every other code `CLASSIC` or reserved. -/
def decodeBusRequest (we : Bool) (cti : Nat) (o : BusOperands) : Except DecodeError Instr :=
  match we, cti with
  | false, 0 => .ok (.busRdClassic o)
  | false, 1 => .ok (.busRdRsvd001 o)
  | false, 2 => .ok (.busRdBurst o)
  | false, 3 => .ok (.busRdRsvd011 o)
  | false, 4 => .ok (.busRdRsvd100 o)
  | false, 5 => .ok (.busRdRsvd101 o)
  | false, 6 => .ok (.busRdRsvd110 o)
  | false, 7 => .ok (.busRdEnd o)
  | true, 0 => .ok (.busWrClassic o)
  | true, 1 => .ok (.busWrRsvd001 o)
  | true, 2 => .ok (.busWrBurst o)
  | true, 3 => .ok (.busWrRsvd011 o)
  | true, 4 => .ok (.busWrRsvd100 o)
  | true, 5 => .ok (.busWrRsvd101 o)
  | true, 6 => .ok (.busWrRsvd110 o)
  | true, 7 => .ok (.busWrEnd o)
  | _, _ => .error .codeTooWide

/-- Format `CA`, 48 bits (`30_encoding.md` R81, R83): `match`/`mask` of spec/opcode_table.json. -/
def decodeCa (code : Nat) (ops : Operands) : Except DecodeError Instr :=
  if code ≥ 2 ^ 48 then .error .codeTooWide
  else if ops ≠ .none then .error .wrongOperands
  else
    let v := BitVec.ofNat 48 code
    if v &&& 0xFFF80000FFF9#48 = 0xA00000000000#48 then .ok (.caRd (v.extractLsb' 16 19) (v.extractLsb' 1 2))
    else if v &&& 0xFFF80000FFF9#48 = 0x200000000000#48 then .ok (.caWr (v.extractLsb' 16 19) (v.extractLsb' 1 2))
    else .error .notACommandWord

/-- Format `BUS`, 5 bits, request, write enable, cycle type (`30_encoding.md` R85). -/
def decodeBus (code : Nat) (ops : Operands) : Except DecodeError Instr :=
  if code ≥ 32 then .error .codeTooWide
  else if code < 16 then
    match ops with
    | .none => .ok (.busNop (code.testBit 3) (BitVec.ofNat 3 code))
    | _ => .error .wrongOperands
  else
    match ops with
    | .bus o => decodeBusRequest (code.testBit 3) (code % 8) o
    | _ => .error .wrongOperands

/-- A register write by index (`30_encoding.md` R90, R94). -/
def decodeCsrWrite (e : EngineId) (idx : Nat) (v : Word) : Except DecodeError Instr :=
  match idx with
  | 0 => .ok (.csrWrStartAddress e v)
  | 1 => .ok (.csrWrTransferSize e v)
  | 2 => .ok (.csrWrBurstSize e v)
  | 3 => .ok (.csrWrDone e v)
  | 4 => .ok (.csrWrEnable e v)
  | 5 => .ok (.csrWrReset e v)
  | 6 => .ok (.csrWrUndef e 6 v)
  | 7 => .ok (.csrWrUndef e 7 v)
  | _ => .error .codeTooWide

/-- A register read by index (`30_encoding.md` R90, R94). -/
def decodeCsrRead (e : EngineId) (idx : Nat) : Except DecodeError Instr :=
  match idx with
  | 0 => .ok (.csrRdStartAddress e)
  | 1 => .ok (.csrRdTransferSize e)
  | 2 => .ok (.csrRdBurstSize e)
  | 3 => .ok (.csrRdDone e)
  | 4 => .ok (.csrRdEnable e)
  | 5 => .ok (.csrRdReset e)
  | 6 => .ok (.csrRdUndef e 6)
  | 7 => .ok (.csrRdUndef e 7)
  | _ => .error .codeTooWide

/-- Format `CSR`, 4 bits, write flag and register index (`30_encoding.md` R90). -/
def decodeCsr (e : EngineId) (code : Nat) (ops : Operands) : Except DecodeError Instr :=
  if code ≥ 16 then .error .codeTooWide
  else if code < 8 then
    match ops with
    | .none => decodeCsrRead e code
    | _ => .error .wrongOperands
  else
    match ops with
    | .data v => decodeCsrWrite e (code - 8) v
    | _ => .error .wrongOperands

/-- Format `DLY`, 3 bits, load, move, direction (`30_encoding.md` R95). -/
def decodeDly (code : Nat) (ops : Operands) : Except DecodeError Instr :=
  match ops with
  | .none =>
    match code with
    | 0 => .ok (.dlyHold false)
    | 1 => .ok (.dlyHold true)
    | 2 => .ok .dlyInc
    | 3 => .ok .dlyDec
    | 4 => .ok (.dlyLoad false false)
    | 5 => .ok (.dlyLoad false true)
    | 6 => .ok (.dlyLoad true false)
    | 7 => .ok (.dlyLoad true true)
    | _ => .error .codeTooWide
  | _ => .error .wrongOperands

/-- Format `FSM`, 4 bits (`30_encoding.md` R96): codes 12 to 15 are no state. -/
def decodeFsm (code : Nat) (ops : Operands) : Except DecodeError Instr :=
  match ops with
  | .none =>
    match code with
    | 0 => .ok .fsmIdle
    | 1 => .ok .fsmCmd
    | 2 => .ok .fsmRwdsWait
    | 3 => .ok .fsmReadStart
    | 4 => .ok .fsmReadAck
    | 5 => .ok .fsmReadBurst
    | 6 => .ok .fsmLatencyWrite
    | 7 => .ok .fsmWPrep
    | 8 => .ok .fsmWriteBurst
    | 9 => .ok .fsmWriteFinish
    | 10 => .ok .fsmTimeout
    | 11 => .ok .fsmCleanup
    | n => if n < 16 then .error .noSuchState else .error .codeTooWide
  | _ => .error .wrongOperands

/-- Format `ENG`, 1 bit (`30_encoding.md` R97). -/
def decodeEng (e : EngineId) (code : Nat) (ops : Operands) : Except DecodeError Instr :=
  match ops with
  | .none =>
    match code with
    | 0 => .ok (.engIdle e)
    | 1 => .ok (.engActive e)
    | _ => .error .codeTooWide
  | _ => .error .wrongOperands

/-- Format `STRM`, 2 bits, valid and ready (`30_encoding.md` R89). -/
def decodeStrm (e : EngineId) (code : Nat) (ops : Operands) : Except DecodeError Instr :=
  match ops with
  | .data v =>
    match code with
    | 0 => .ok (.strmIdle e v)
    | 1 => .ok (.strmOverflow e v)
    | 2 => .ok (.strmUnderflow e v)
    | 3 => .ok (.strmXfer e v)
    | _ => .error .codeTooWide
  | _ => .error .wrongOperands

/-- Format `CDCW`, 3 bits, side reset, valid, ready (`30_encoding.md` R102). -/
def decodeCdcw (q : Nat) (code : Nat) (ops : Operands) : Except DecodeError Instr :=
  match ops with
  | .payload d =>
    match code with
    | 0 => .ok (.cdcwIdle q false d)
    | 1 => .ok (.cdcwIdle q true d)
    | 2 => .ok (.cdcwStall q d)
    | 3 => .ok (.cdcwPush q d)
    | 4 => .ok (.cdcwReset q false false d)
    | 5 => .ok (.cdcwReset q false true d)
    | 6 => .ok (.cdcwReset q true false d)
    | 7 => .ok (.cdcwReset q true true d)
    | _ => .error .codeTooWide
  | _ => .error .wrongOperands

/-- Format `CDCR`, 3 bits, side reset, valid, ready (`30_encoding.md` R102). -/
def decodeCdcr (q : Nat) (code : Nat) (ops : Operands) : Except DecodeError Instr :=
  match ops with
  | .none =>
    match code with
    | 0 => .ok (.cdcrEmpty q false)
    | 1 => .ok (.cdcrEmpty q true)
    | 2 => .ok (.cdcrWait q)
    | 3 => .ok (.cdcrPop q)
    | 4 => .ok (.cdcrReset q false false)
    | 5 => .ok (.cdcrReset q false true)
    | 6 => .ok (.cdcrReset q true false)
    | 7 => .ok (.cdcrReset q true true)
    | _ => .error .codeTooWide
  | _ => .error .wrongOperands

/-- Format `EVT`: no bit pattern, argument names only (`30_encoding.md` R103). -/
def decodeEvt (v : Event) (code : Nat) (ops : Operands) : Except DecodeError Instr :=
  if code ≠ 0 then .error .eventWithCode
  else
    match v, ops with
    | .shiftOut, .call w m => .ok (.phyShiftout w m)
    | .phyIdle, .none => .ok .phyIdle
    | .sampleIn, .none => .ok (.phySamplein ())
    | .startLocal e, .none => .ok (.dmaStartLocal e)
    | .startExt e, .none => .ok (.dmaStartExt e)
    | .pulseSend x, .level b => .ok (.pulseSend x b)
    | .pulseSync x, .none => .ok (.pulseSync x)
    | .sysReset, .none => .ok .sysReset
    | _, _ => .error .wrongOperands

/-- The decoder: which operation a code on a port is. Total: what is no operation is rejected by name. -/
def decode (w : OpWord) : Except DecodeError Instr :=
  match w.port with
  | .ca => decodeCa w.code w.operands
  | .bus => decodeBus w.code w.operands
  | .csr e => decodeCsr e w.code w.operands
  | .dly => decodeDly w.code w.operands
  | .fsm => decodeFsm w.code w.operands
  | .eng e => decodeEng e w.code w.operands
  | .strm e => decodeStrm e w.code w.operands
  | .cdcw q => decodeCdcw q w.code w.operands
  | .cdcr q => decodeCdcr q w.code w.operands
  | .evt v => decodeEvt v w.code w.operands

/-! ### The encoder -/

/-- The command word's 48 bits from its fields (`30_encoding.md` R81): direction, 0, burst type 1, ten zeros, `ROWCOL`,
thirteen zeros, `COLLO`, 0. -/
def encodeCa (read : Bool) (row : BitVec 19) (col : BitVec 2) : BitVec 48 :=
  BitVec.ofBool read ++ 0b01#2 ++ 0#10 ++ row ++ 0#13 ++ col ++ 0#1

/-- A code of one to five bits from its bits, most significant first. -/
def codeOfBits (bits : List Bool) : Nat :=
  bits.foldl (fun n b => 2 * n + b.toNat) 0

/-- An operation's code on the port it appears on (`30_encoding.md`, spec/opcode_table.json). -/
def encode : Instr → OpWord
  | .caRd row col => ⟨.ca, (encodeCa true row col).toNat, .none⟩
  | .caWr row col => ⟨.ca, (encodeCa false row col).toNat, .none⟩
  | .busNop we cti => ⟨.bus, 8 * we.toNat + cti.toNat, .none⟩
  | .busRdClassic o => ⟨.bus, 0b10000, .bus o⟩
  | .busRdBurst o => ⟨.bus, 0b10010, .bus o⟩
  | .busRdEnd o => ⟨.bus, 0b10111, .bus o⟩
  | .busRdRsvd001 o => ⟨.bus, 0b10001, .bus o⟩
  | .busRdRsvd011 o => ⟨.bus, 0b10011, .bus o⟩
  | .busRdRsvd100 o => ⟨.bus, 0b10100, .bus o⟩
  | .busRdRsvd101 o => ⟨.bus, 0b10101, .bus o⟩
  | .busRdRsvd110 o => ⟨.bus, 0b10110, .bus o⟩
  | .busWrClassic o => ⟨.bus, 0b11000, .bus o⟩
  | .busWrBurst o => ⟨.bus, 0b11010, .bus o⟩
  | .busWrEnd o => ⟨.bus, 0b11111, .bus o⟩
  | .busWrRsvd001 o => ⟨.bus, 0b11001, .bus o⟩
  | .busWrRsvd011 o => ⟨.bus, 0b11011, .bus o⟩
  | .busWrRsvd100 o => ⟨.bus, 0b11100, .bus o⟩
  | .busWrRsvd101 o => ⟨.bus, 0b11101, .bus o⟩
  | .busWrRsvd110 o => ⟨.bus, 0b11110, .bus o⟩
  | .csrWrStartAddress e v => ⟨.csr e, 0b1000, .data v⟩
  | .csrWrTransferSize e v => ⟨.csr e, 0b1001, .data v⟩
  | .csrWrBurstSize e v => ⟨.csr e, 0b1010, .data v⟩
  | .csrWrDone e v => ⟨.csr e, 0b1011, .data v⟩
  | .csrWrEnable e v => ⟨.csr e, 0b1100, .data v⟩
  | .csrWrReset e v => ⟨.csr e, 0b1101, .data v⟩
  | .csrWrUndef e idx v => ⟨.csr e, 8 + idx.toNat, .data v⟩
  | .csrRdStartAddress e => ⟨.csr e, 0b0000, .none⟩
  | .csrRdTransferSize e => ⟨.csr e, 0b0001, .none⟩
  | .csrRdBurstSize e => ⟨.csr e, 0b0010, .none⟩
  | .csrRdDone e => ⟨.csr e, 0b0011, .none⟩
  | .csrRdEnable e => ⟨.csr e, 0b0100, .none⟩
  | .csrRdReset e => ⟨.csr e, 0b0101, .none⟩
  | .csrRdUndef e idx => ⟨.csr e, idx.toNat, .none⟩
  | .dlyLoad move dir => ⟨.dly, codeOfBits [true, move, dir], .none⟩
  | .dlyInc => ⟨.dly, 0b010, .none⟩
  | .dlyDec => ⟨.dly, 0b011, .none⟩
  | .dlyHold dir => ⟨.dly, codeOfBits [false, false, dir], .none⟩
  | .fsmIdle => ⟨.fsm, 0b0000, .none⟩
  | .fsmCmd => ⟨.fsm, 0b0001, .none⟩
  | .fsmRwdsWait => ⟨.fsm, 0b0010, .none⟩
  | .fsmReadStart => ⟨.fsm, 0b0011, .none⟩
  | .fsmReadAck => ⟨.fsm, 0b0100, .none⟩
  | .fsmReadBurst => ⟨.fsm, 0b0101, .none⟩
  | .fsmLatencyWrite => ⟨.fsm, 0b0110, .none⟩
  | .fsmWPrep => ⟨.fsm, 0b0111, .none⟩
  | .fsmWriteBurst => ⟨.fsm, 0b1000, .none⟩
  | .fsmWriteFinish => ⟨.fsm, 0b1001, .none⟩
  | .fsmTimeout => ⟨.fsm, 0b1010, .none⟩
  | .fsmCleanup => ⟨.fsm, 0b1011, .none⟩
  | .engIdle e => ⟨.eng e, 0, .none⟩
  | .engActive e => ⟨.eng e, 1, .none⟩
  | .strmXfer e data => ⟨.strm e, 0b11, .data data⟩
  | .strmUnderflow e data => ⟨.strm e, 0b10, .data data⟩
  | .strmOverflow e data => ⟨.strm e, 0b01, .data data⟩
  | .strmIdle e data => ⟨.strm e, 0b00, .data data⟩
  | .cdcwReset q valid ready data => ⟨.cdcw q, codeOfBits [true, valid, ready], .payload data⟩
  | .cdcwPush q data => ⟨.cdcw q, 0b011, .payload data⟩
  | .cdcwStall q data => ⟨.cdcw q, 0b010, .payload data⟩
  | .cdcwIdle q ready data => ⟨.cdcw q, codeOfBits [false, false, ready], .payload data⟩
  | .cdcrReset q valid ready => ⟨.cdcr q, codeOfBits [true, valid, ready], .none⟩
  | .cdcrPop q => ⟨.cdcr q, 0b011, .none⟩
  | .cdcrWait q => ⟨.cdcr q, 0b010, .none⟩
  | .cdcrEmpty q ready => ⟨.cdcr q, codeOfBits [false, false, ready], .none⟩
  | .phyShiftout w m => ⟨.evt .shiftOut, 0, .call w m⟩
  | .phyIdle => ⟨.evt .phyIdle, 0, .none⟩
  | .phySamplein _ => ⟨.evt .sampleIn, 0, .none⟩
  | .dmaStartLocal e => ⟨.evt (.startLocal e), 0, .none⟩
  | .dmaStartExt e => ⟨.evt (.startExt e), 0, .none⟩
  | .pulseSend x pulse => ⟨.evt (.pulseSend x), 0, .level pulse⟩
  | .pulseSync x => ⟨.evt (.pulseSync x), 0, .none⟩
  | .sysReset => ⟨.evt .sysReset, 0, .none⟩

/-! ### The table's own numbering -/

/-- The operands of zeros that a code on this port has beside it (the table gives operands no bits). -/
def zeroOperands : Port → Nat → Operands
  | .bus, code => if code < 16 then .none else .bus ⟨0, 0, 0⟩
  | .csr _, code => if code < 8 then .none else .data 0
  | .strm _, _ => .data 0
  | .cdcw _, _ => .payload 0
  | _, _ => .none

/-- Which port a bare code of the table is read on. The table's formats share their code values and a bare number does
not name its format: 48 bits are a command word, a code of 16 or more is a bus request, and every other short code is a
register access of the writer engine, the one format in which all sixteen 4-bit codes are operations; a width that is
exactly 1, 2, 3 or 5 is read on the port of that width. DESIGN CHOICE, log entry 1. -/
def tablePort (nbits w : Nat) : Port :=
  if nbits = 48 then .ca
  else if nbits = 5 then .bus
  else if nbits = 3 then .dly
  else if nbits = 2 then .strm .writer
  else if nbits = 1 then .eng .writer
  else if w ≥ 16 then .bus
  else .csr .writer

/-- An operation of spec/opcode_table.json as a word: its bits on their port, every operand zero. -/
def tableWord (nbits w : Nat) : OpWord :=
  ⟨tablePort nbits w, w, zeroOperands (tablePort nbits w) w⟩

/-- The instruction the decoder reads from the table's bits `w` (`none` where it refuses). -/
def decodeTableWord (nbits w : Nat) : Option Instr :=
  match decode (tableWord nbits w) with
  | .ok i => some i
  | .error _ => none

end Sys2Proof
end

