-- ==== Sys2Proof/Machine/State.lean ====
section
/-! DEFINITION. The machine's state as plain data: every register of `10_state.md` sections 1 to 4, the input lines the
environment drives, and the model's own fields, with the value of each right after reset. -/

namespace Sys2Proof.Machine

/-! ### The protocol controller (`10_state.md` section 1) -/

/-- The protocol FSM's twelve states (`10_state.md` R10, codes `30_encoding.md` R96). -/
inductive FsmState where
  | idle
  | cmd
  | rwdsWait
  | readStart
  | readAck
  | readBurst
  | latencyWrite
  | wPrep
  | writeBurst
  | writeFinish
  | timeout
  | cleanup
  deriving DecidableEq, Repr

/-- The protocol controller's registers (`10_state.md` R10 to R18). -/
structure Fsm where
  /-- R10: which rule the next tick executes. -/
  state : FsmState
  /-- R11: chip-select asserted. -/
  cs : Bool
  /-- R11: the output clock toggles. -/
  clkEn : Bool
  /-- R11: the core drives the data lanes. -/
  dqOe : Bool
  /-- R11: the core drives the strobe line. -/
  rwdsOe : Bool
  /-- R12: the command word of the window. -/
  ca : CommandWord
  /-- R13: cycles since the phase began. -/
  phaseCnt : BitVec 8
  /-- R14: words acknowledged in the window. -/
  burstCnt : BitVec 10
  /-- R15: the burst-continue hint of the last acknowledged request. -/
  contHint : Bool
  /-- R16: the captured word. -/
  readData : Word
  /-- R17: the strobe at the last beat of the previous cycle's capture. -/
  strobeLast : Bool
  /-- R18: the device's reset line. -/
  devRst : Bool
  deriving DecidableEq, Repr

/-- Reset values of `10_state.md` section 7. -/
def Fsm.reset : Fsm where
  state := .idle
  cs := false
  clkEn := false
  dqOe := false
  rwdsOe := false
  ca := 0
  phaseCnt := 0
  burstCnt := 0
  contHint := false
  readData := 0
  strobeLast := true
  devRst := true

/-- One call `shiftOut(word, mask)` (`40_phy_shift.md` R112). -/
structure ShiftCall where
  word : Word
  mask : BitVec 4
  deriving DecidableEq, Repr

/-- What a protocol rule leaves: the controller's registers, and the `shiftOut` call it makes, if any. -/
structure FsmNext where
  fsm : Fsm
  call : Option ShiftCall
  deriving DecidableEq, Repr

/-! ### The PHY shift layer (`10_state.md` section 2) -/

/-- The PHY's registers (`10_state.md` R19 to R22). -/
structure Phy where
  /-- R19: the word on the data lanes in this cycle. -/
  txWord : Word
  /-- R19: the strobe levels of this cycle, bit 3 - b for beat b. -/
  txMask : BitVec 4
  /-- R19: the word was queued by a call. -/
  txValid : Bool
  /-- R20: the word sampled in the previous cycle. -/
  rxWord : Word
  /-- R20: its strobe samples, bit 3 - b for beat b. -/
  rxStrobe : BitVec 4
  /-- R21: the first half-cycle's samples, 16 data bits above 2 strobe bits. -/
  rxHalf0 : BitVec 18
  /-- R22: the input-delay tap. -/
  delayTap : Nat
  deriving DecidableEq, Repr

/-- Reset values of `10_state.md` section 7. -/
def Phy.reset : Phy where
  txWord := 0
  txMask := 0b1111
  txValid := false
  rxWord := 0
  rxStrobe := 0
  rxHalf0 := 0
  delayTap := 0

/-! ### The DMA engines (`10_state.md` section 3) -/

/-- The engine FSM's two states (`10_state.md` R25, codes `30_encoding.md` R97). -/
inductive EngState where
  | idle
  | active
  deriving DecidableEq, Repr

/-- One engine's registers (`10_state.md` R23 to R25). -/
structure Engine where
  /-- R23. -/
  startAddress : Word
  /-- R23. -/
  transferSize : Word
  /-- R23. -/
  burstSize : Word
  /-- R24. -/
  enabled : Bool
  /-- R24. -/
  busy : Bool
  /-- R24: sticky completion flag. -/
  done : Bool
  /-- R25. -/
  est : EngState
  /-- R25: words acknowledged in the transfer. -/
  wordCnt : BitVec 32
  /-- R25: words acknowledged in the engine burst. -/
  bwordCnt : BitVec 32
  deriving DecidableEq, Repr

/-- Reset values of `10_state.md` section 7. -/
def Engine.reset : Engine where
  startAddress := 0
  transferSize := 0
  burstSize := Config.dmaBurstDefault
  enabled := false
  busy := false
  done := false
  est := .idle
  wordCnt := 0
  bwordCnt := 0

/-! ### The clock-domain crossings (`10_state.md` section 4) -/

/-- The two foreign clock domains (`00_scope.md` R5): they own the far sides of queues and crossings and nothing else. -/
inductive Domain where
  | videoPixel
  | sensorReceive
  deriving DecidableEq, Repr

/-- The two sides of a queue (`46_cdc_queue.md` R260). -/
inductive QueueSide where
  | write
  | read
  deriving DecidableEq, Repr

/-- The build parameters of one queue (`46_cdc_queue.md` R260): `CDC_DEPTH` = 2 ^ depthLog, `CDC_W` = width, the side
that is in the `sys` domain and the domain of the other side. `ident` tells the free values of one queue from those of
another. Log entry 2. -/
structure QueueCfg where
  ident : Nat
  depthLog : Nat
  width : Nat
  sysSide : QueueSide
  farDomain : Domain
  deriving DecidableEq, Repr

/-- MODEL'S OWN. How far a flush has come (`46_cdc_queue.md` R268): which side is in reset, whether both pointers have
been cleared together (the instant T) and neither side has run too early since, each side's reset ticks since T, counted
up to `SYNC_STAGES`, whether a side has run in a reset that is not clean (R269), and whether the platform vouches for the
reset under way. Log entry 6. -/
structure Flush where
  /-- The write side's last tick was a reset tick. -/
  wIn : Bool
  /-- The read side's last tick was a reset tick. -/
  rIn : Bool
  /-- The instant T of the flush under way has passed, or the last flush was clean. -/
  both : Bool
  /-- The write side's reset ticks since T. -/
  wGood : Nat
  /-- The read side's reset ticks since T. -/
  rGood : Nat
  /-- A side has run in an unclean reset, and no flush has begun anew since: everything is unspecified (R269). -/
  unclean : Bool
  /-- The reset under way is part of a clean flush: a free value, drawn when a side goes into reset. "This bound must be
  documented and enforced by configuration, not inferred at runtime" (R269). -/
  vouched : Bool
  /-- How often a side has gone into reset; numbers the free values of `vouched`. -/
  number : Nat
  deriving DecidableEq, Repr

/-- One queue (`10_state.md` R27 to R29): its storage as the written entries in rising order of index, its two pointers
and their synchroniser stages. -/
structure Queue where
  cfg : QueueCfg
  /-- R27: the entries written so far, as (index, payload). -/
  mem : List (Nat × Nat)
  /-- R28, write domain. -/
  wptr : Nat
  /-- R28, read domain. -/
  rptr : Nat
  /-- R29, write domain, first stage. -/
  rptrW1 : Nat
  /-- R29, write domain, second stage. -/
  rptrW2 : Nat
  /-- R29, read domain, first stage. -/
  wptrR1 : Nat
  /-- R29, read domain, second stage. -/
  wptrR2 : Nat
  /-- MODEL'S OWN: the progress of a flush. -/
  flush : Flush
  /-- MODEL'S OWN: how often the queue has been left unspecified; numbers the free values. -/
  generation : Nat
  /-- MODEL'S OWN: whether the last write-side tick took the payload offered. -/
  accepted : Bool
  /-- MODEL'S OWN: the payload the consumer took at the last read-side tick, if it took one. -/
  popped : Option Nat
  deriving DecidableEq, Repr

/-- A queue right after power-on, which counts as a clean flush (`46_cdc_queue.md` R268). -/
def Queue.powerOn (cfg : QueueCfg) : Queue where
  cfg := cfg
  mem := []
  wptr := 0
  rptr := 0
  rptrW1 := 0
  rptrW2 := 0
  wptrR1 := 0
  wptrR2 := 0
  flush := ⟨false, false, false, 0, 0, false, false, 0⟩
  generation := 0
  accepted := false
  popped := none

/-- The two ends of a pulse crossing (`46_cdc_queue.md` R272). -/
inductive CrossSide where
  | source
  | dest
  deriving DecidableEq, Repr

/-- One pulse crossing (`10_state.md` R30), the end of it that is in the `sys` domain and the domain of the other. -/
structure Crossing where
  sysSide : CrossSide
  farDomain : Domain
  /-- Source domain. -/
  tgl : Bool
  /-- Destination domain, first synchroniser stage. -/
  t1 : Bool
  /-- Destination domain, second synchroniser stage. -/
  t2 : Bool
  /-- Destination domain, edge-detect stage. -/
  t3 : Bool
  /-- Destination domain, the stretcher's counter. -/
  stretchCnt : Nat
  deriving DecidableEq, Repr

/-- A crossing at power-on: all registers 0 (`10_state.md` R30). -/
def Crossing.powerOn (side : CrossSide) (d : Domain) : Crossing :=
  ⟨side, d, false, false, false, false, 0⟩

/-! ### The input lines (`10_state.md` R31: not the core's state; the environment chooses them each cycle) -/

/-- The requester's lines at the adapter (`30_encoding.md` R85). -/
structure BusIn where
  cyc : Bool
  stb : Bool
  we : Bool
  sel : BitVec 4
  adr : BitVec 32
  datW : Word
  cti : BitVec 3
  deriving DecidableEq, Repr

/-- Which master the external arbiter connects in a cycle (`20_memory.md` R68). -/
inductive Master where
  | external
  | engine (e : EngineId)
  deriving DecidableEq, Repr

/-- One control-plane access of a cycle (`30_encoding.md` R90). -/
structure CsrAccess where
  wr : Bool
  idx : BitVec 3
  data : Word
  deriving DecidableEq, Repr

/-- What stands at the far end of an engine's streaming port: a partner's level (`source.ready` or `sink.valid`) with
its data, or the `sys` side of a queue (`46_cdc_queue.md` R277). DESIGN CHOICE, log entry 26: the wiring, which D37 leaves
OPEN, is a line of the cycle, which a `STRM.*` operation or a script event replaces for later cycles too. -/
inductive Partner where
  | level (on : Bool) (data : Word)
  | queue (i : Nat)
  deriving DecidableEq, Repr

/-- The input lines of one engine. -/
structure EngIn where
  csr : Option CsrAccess
  start : Bool
  partner : Partner
  deriving DecidableEq, Repr

/-- What drives the `sys` side of a queue: the environment (`valid` and `data` for a write side, `ready` for a read
side) or the engine whose port it faces (`46_cdc_queue.md` R277). DESIGN CHOICE, log entry 26: a line of the cycle,
independent of the engine's `Partner`, which an operation on that side or a script event replaces for later cycles too. -/
inductive QueueLink where
  | lines (valid ready : Bool) (data : Nat)
  | engine
  deriving DecidableEq, Repr

/-- The input lines of a queue's far side in a cycle of its domain: the side's reset, and `sink.valid` with `sink.data`
(a write side) or `source.ready` (a read side). -/
structure FarIn where
  rst : Bool
  valid : Bool
  ready : Bool
  data : Nat
  deriving DecidableEq, Repr

/-- The input lines of a queue: those of its `sys` side and those of its far side. -/
structure QueueIn where
  rst : Bool
  link : QueueLink
  far : FarIn
  deriving DecidableEq, Repr

/-- The input lines of a crossing: `pulse_in` when its source end is in `sys`; the reset of the domain of its far end
(`70_reset_and_hazards.md` R322), and `pulse_in` when its source end is the far one. -/
structure CrossIn where
  pulse : Bool
  farRst : Bool
  farPulse : Bool
  deriving DecidableEq, Repr

/-- Every input of the core in one `sys` cycle. -/
structure Inputs where
  rst : Bool
  grant : Master
  bus : BusIn
  pins : Pins
  dly : BitVec 3
  writer : EngIn
  reader : EngIn
  queues : List QueueIn
  crossings : List CrossIn
  deriving DecidableEq, Repr

/-- Lines at rest: no request, no access, no partner. -/
def Inputs.idle : Inputs where
  rst := false
  grant := .external
  bus := ⟨false, false, false, 0, 0, 0, 0⟩
  pins := ⟨0, 0, 0, 0, false, false, false, false⟩
  dly := 0
  writer := ⟨none, false, .level false 0⟩
  reader := ⟨none, false, .level false 0⟩
  queues := []
  crossings := []

/-- One event of the stimulus script (`30_encoding.md` R100): the lines of the cycle, and the operation of the tick;
`none` for a plain `sys` tick, whose operation is the one the FSM's state code names. -/
structure Cue where
  inp : Inputs
  op : Option OpWord
  deriving DecidableEq, Repr

/-! ### Outputs -/

/-- The outputs of one engine in a cycle (`45_dma_engines.md` R211, R218, R248). -/
structure EngOut where
  csrData : Word
  valid : Bool
  ready : Bool
  data : Word
  transferComplete : Bool
  overflow : Bool
  underflow : Bool
  deriving DecidableEq, Repr

/-- MODEL'S OWN: the combinational outputs as they stood in the cycle that the last `sys` tick ended
(`00_scope.md` R7). No rule of the core reads them. Log entry 3. -/
structure Outputs where
  ack : Bool
  readData : Word
  writer : EngOut
  reader : EngOut
  deriving DecidableEq, Repr

/-- Outputs before the first tick. -/
def Outputs.idle : Outputs where
  ack := false
  readData := 0
  writer := ⟨0, false, false, 0, false, false, false⟩
  reader := ⟨0, false, false, 0, false, false, false⟩

/-! ### The whole state -/

/-- The device's storage as a byte array (`20_memory.md` R51, R56, R63): byte address to byte, addresses strictly
rising; an unlisted byte is one whose content nothing has fixed. Log entry 4. -/
abbrev Memory := List Host.Cell

/-- The whole machine. -/
structure State where
  /-- The build (`00_scope.md` section 4). -/
  params : Params
  /-- Protocol controller and supervisor. -/
  fsm : Fsm
  /-- PHY shift layer. -/
  phy : Phy
  /-- The engine that reads memory. -/
  writer : Engine
  /-- The engine that writes memory. -/
  reader : Engine
  /-- The clock-domain-crossing queues. -/
  queues : List Queue
  /-- The pulse crossings. -/
  crossings : List Crossing
  /-- The device's storage (`20_memory.md` R63 to R65): the device's, not the core's; no rule of the core reads it. -/
  devMem : Memory
  /-- The input lines of the current cycle. -/
  inp : Inputs
  /-- MODEL'S OWN: the outputs of the last `sys` cycle. -/
  out : Outputs
  /-- MODEL'S OWN: how many free bus words have been used. -/
  free : Nat
  /-- MODEL'S OWN: the delay tap has been moved in the chip-select window of the last cycle: the window's samples are
  unspecified (`40_phy_shift.md` R119). Log entry 24. -/
  tapMoved : Bool
  /-- MODEL'S OWN: the events of the stimulus script still to come. -/
  script : List Cue
  deriving DecidableEq, Repr

/-- Why a step stops the machine. -/
inductive Fault where
  /-- A queue operation names a queue the platform does not have. Raised by the `CDCW.*` and `CDCR.*` meanings. Safe:
  there is no such hardware. -/
  | noSuchQueue (q : Nat)
  /-- A crossing operation names a crossing the platform does not have. Raised by the `PULSE.*` meanings. Safe. -/
  | noSuchCrossing (x : Nat)
  deriving DecidableEq, Repr

/-- Why the model has no meaning for a step. -/
inductive Refusal where
  /-- An instruction without a meaning yet. Raised by `exec`'s refused arms; there is none. Safe. -/
  | notModelled (mnemonic : String)
  /-- The script's next operation word is no operation. Raised by `step`. Safe. -/
  | undecodable (e : DecodeError)
  /-- The script's next operation word names a state that the state register does not hold: the register alone selects
  the rule (`10_state.md` R10). Raised by `step`. Safe: no such cycle exists. -/
  | notTheStateCode
  /-- The build's parameters are outside their range (`93_implementation_defined.md` U12: refuse). Raised by `step`.
  Safe: no such build exists. -/
  | illegalBuild
  deriving DecidableEq, Repr

/-- The platform's queues in `State.reset`: one from the writer engine to the video-pixel domain, one from the
sensor-receive domain to the reader engine. Log entry 2. -/
def resetQueues : List Queue :=
  [Queue.powerOn ⟨0, 2, 32, .write, .videoPixel⟩, Queue.powerOn ⟨1, 2, 32, .read, .sensorReceive⟩]

/-- The platform's pulse crossings in `State.reset`: one into `sys` for each foreign domain. Log entry 2. -/
def resetCrossings : List Crossing :=
  [Crossing.powerOn .dest .videoPixel, Crossing.powerOn .dest .sensorReceive]

/-- The machine right after reset: the table of `10_state.md` section 7. -/
def State.reset : State where
  params := Params.default
  fsm := Fsm.reset
  phy := Phy.reset
  writer := Engine.reset
  reader := Engine.reset
  queues := resetQueues
  crossings := resetCrossings
  devMem := []
  inp := Inputs.idle
  out := Outputs.idle
  free := 0
  tapMoved := false
  script := []

end Sys2Proof.Machine
end

