-- ==== Sys2Proof/Machine/Ops.lean ====
section
/-! DEFINITION. The named operations over storage, list cells and state components, the byte order of a word, and the one
condition that redirects control: taking it and returning from it. -/

namespace Sys2Proof.Machine

/-! ### Storage: (address, value) lists in canonical form -/

/-- The value listed at an address, if one is. -/
def cellRead {α : Type} (m : List (Nat × α)) (a : Nat) : Option α :=
  match m with
  | [] => none
  | (k, v) :: rest => if k = a then some v else cellRead rest a

/-- The list with `v` at address `a`, in rising order of address. -/
def cellWrite {α : Type} (m : List (Nat × α)) (a : Nat) (v : α) : List (Nat × α) :=
  match m with
  | [] => [(a, v)]
  | (k, w) :: rest =>
    if a < k then (a, v) :: (k, w) :: rest
    else if a = k then (a, v) :: rest
    else (k, w) :: cellWrite rest a v

/-- Addresses rise strictly from one above `low`. -/
def cellsAbove {α : Type} (low : Nat) (m : List (Nat × α)) : Bool :=
  match m with
  | [] => true
  | (k, _) :: rest => decide (low < k) && cellsAbove k rest

/-- The canonical form of a storage list: addresses strictly rising. An unlisted address reads as no value, so no entry
can equal it and the form needs no more. -/
def cellsWf {α : Type} (m : List (Nat × α)) : Bool :=
  match m with
  | [] => true
  | (k, _) :: rest => cellsAbove k rest

/-- The canonical form of the device's storage. -/
def Memory.wf (m : Memory) : Bool :=
  cellsWf m

/-- One byte of the device's storage; `none` where nothing has fixed its content (log entry 4). -/
def Memory.byte (m : Memory) (a : Nat) : Option Byte :=
  cellRead m a

/-! ### Bytes and beats of a word (`20_memory.md` R55, `30_encoding.md` R98) -/

/-- The byte a word carries at beat `b`: most significant byte first. -/
def beatByte (w : Word) (b : Nat) : Byte :=
  w.extractLsb' (24 - 8 * b) 8

/-- The strobe level of beat `b` in a 4-bit strobe word or mask: bit 3 - b. -/
def beatStrobe (m : BitVec 4) (b : Nat) : Bool :=
  m.getLsbD (3 - b)

/-- The 16 bits that the serial side moves in half-cycle `h` (`40_phy_shift.md` R114). -/
def halfWord (w : Word) (h : Nat) : BitVec 16 :=
  w.extractLsb' (16 - 16 * h) 16

/-- The level of data lane `lane` during beat `b`: bit `lane` of the beat's byte. -/
def laneLevel (w : Word) (b lane : Nat) : Bool :=
  (beatByte w b).getLsbD lane

/-! ### Lists of lines -/

/-- The list with entry `i` replaced, filled up with `fill` where it is too short. -/
def setAt {α : Type} (fill : α) (l : List α) (i : Nat) (v : α) : List α :=
  match l, i with
  | [], 0 => [v]
  | [], i + 1 => fill :: setAt fill [] i v
  | _ :: rest, 0 => v :: rest
  | x :: rest, i + 1 => x :: setAt fill rest i v

/-- The list with every entry moved on by a function of its number, the first one's being `i`. -/
def tickFrom {α : Type} (f : Nat → α → α) (i : Nat) (l : List α) : List α :=
  match l with
  | [] => []
  | x :: rest => f i x :: tickFrom f (i + 1) rest

/-! ### Components of the state by name -/

/-- One engine of the two. -/
def State.engine (s : State) (e : EngineId) : Engine :=
  match e with
  | .writer => s.writer
  | .reader => s.reader

/-- One engine's input lines. -/
def Inputs.eng (l : Inputs) (e : EngineId) : EngIn :=
  match e with
  | .writer => l.writer
  | .reader => l.reader

/-- One engine's outputs. -/
def Outputs.eng (o : Outputs) (e : EngineId) : EngOut :=
  match e with
  | .writer => o.writer
  | .reader => o.reader

/-- `EXT_SYNC` of one engine (`45_dma_engines.md` R220, R221). -/
def extSyncOf (p : Params) (e : EngineId) : Bool :=
  match e with
  | .writer => p.extSyncWriter
  | .reader => p.extSyncReader

/-- `CSR_BASE` of one engine (`20_memory.md` R60). -/
def csrBaseOf (p : Params) (e : EngineId) : BitVec 32 :=
  match e with
  | .writer => p.csrBaseWriter
  | .reader => p.csrBaseReader

/-- The state with one engine's input lines replaced. -/
def State.setEngIn (s : State) (e : EngineId) (l : EngIn) : State :=
  match e with
  | .writer => { s with inp := { s.inp with writer := l } }
  | .reader => { s with inp := { s.inp with reader := l } }

/-- The state with the protocol FSM's state register at `x`. -/
def State.setFsmState (s : State) (x : FsmState) : State :=
  { s with fsm := { s.fsm with state := x } }

/-- The state with one engine's FSM register at `x`. -/
def State.setEst (s : State) (e : EngineId) (x : EngState) : State :=
  match e with
  | .writer => { s with writer := { s.writer with est := x } }
  | .reader => { s with reader := { s.reader with est := x } }

/-! ### Phases, and the redirecting condition (`60_exceptions.md` R290, R299, R300) -/

/-- Go to a state: every tick that changes state clears the phase counter (`43_burst_timeout_supervisor.md` R182). -/
def enterState (x : FsmState) (f : Fsm) : Fsm :=
  { f with state := x, phaseCnt := 0 }

/-- Spend one more cycle in a counted state (`43_burst_timeout_supervisor.md` R182). -/
def stayCounting (f : Fsm) : Fsm :=
  { f with phaseCnt := f.phaseCnt + 1 }

/-- One more word acknowledged in the window (`43_burst_timeout_supervisor.md` R180). -/
def countWord (f : Fsm) : Fsm :=
  { f with burstCnt := f.burstCnt + 1 }

/-- "Reset to 0 whenever the state machine is idle" (`43_burst_timeout_supervisor.md` R180, `42_protocol_fsm.md` R152). -/
def clearWindow (f : Fsm) : Fsm :=
  { f with burstCnt := 0, contHint := false }

/-- Taking ProtocolTimeout: `state` goes to `TIMEOUT`, the phase counter to 0, nothing else is written and nothing is
saved (`60_exceptions.md` R290, R296, R299). -/
def takeTimeout (f : Fsm) : Fsm :=
  enterState .timeout f

/-- Returning from ProtocolTimeout, first tick: to `CLEANUP` (`60_exceptions.md` R300, `42_protocol_fsm.md` R160). -/
def leaveTimeout (f : Fsm) : Fsm :=
  enterState .cleanup f

/-- Closing a window: chip-select, clock and output enables off, counters and hint 0, `IDLE`
(`60_exceptions.md` R300, `42_protocol_fsm.md` R159). -/
def closeWindow (f : Fsm) : Fsm :=
  enterState .idle (clearWindow { f with cs := false, clkEn := false, dqOe := false, rwdsOe := false })

end Sys2Proof.Machine
end

