-- ==== Sys2Proof/Machine/CommandEncoder.lean ====
section
/-! DEFINITION. The command/address encoder (`41_command_encoder.md`). -/

namespace Sys2Proof.Machine

/-- `Encode(adr, we)`, a pure function (`41_command_encoder.md` R130, `30_encoding.md` R82): bit 47 the direction (1 read),
bit 45 linear, `adr[20:2]` in 34:16, `adr[1:0]` in 2:1, every other bit 0; address bits above 20 are dropped. -/
def encodeCommand (adr : BitVec 32) (we : Bool) : CommandWord :=
  BitVec.ofBool (!we) ++ 0b01#2 ++ 0#10 ++ adr.extractLsb' 2 19 ++ 0#13 ++ adr.extractLsb' 0 2 ++ 0#1

/-- Bit 47 of a command word: 1 for a read window (`30_encoding.md` R81). -/
def isReadCommand (ca : CommandWord) : Bool :=
  ca.getLsbD 47

/-- The first word of the command window, `ca[47:16]` (`30_encoding.md` R84). -/
def commandHigh (ca : CommandWord) : Word :=
  ca.extractLsb' 16 32

/-- The second word of the command window, `ca[15:0]` and two zero bytes (`30_encoding.md` R84). -/
def commandLow (ca : CommandWord) : Word :=
  ca.extractLsb' 0 16 ++ 0#16

/-- The device half-word address a command word names, `ca[34:16]` above `ca[2:0]` (`20_memory.md` R52). -/
def commandHalfword (ca : CommandWord) : BitVec 22 :=
  ca.extractLsb' 16 19 ++ ca.extractLsb' 0 3

end Sys2Proof.Machine
end

