-- ==== Sys2Proof/Machine/Device.lean ====
section
/-! DEFINITION. The physical device contract (`20_memory.md` section 6): what a word-faithful device stores and returns. -/

namespace Sys2Proof.Machine

/-- The byte address of beat `b` of the `k`-th word of the window of command word `ca`: byte `b` mod 2 of half-word
`(ha0 + 2k + b div 2) mod 2^22` (`20_memory.md` R52, R56, R64, R65). -/
def deviceByteAddr (ca : CommandWord) (k b : Nat) : Nat :=
  2 * (((commandHalfword ca).toNat + 2 * k + b / 2) % 2 ^ 22) + b % 2

/-- One beat of `DevWrite`: the byte is stored where the mask bit is 0 (`20_memory.md` R65). -/
def deviceStoreBeat (ca : CommandWord) (k : Nat) (c : ShiftCall) (b : Nat) (m : Memory) : Memory :=
  if beatStrobe c.mask b then m else cellWrite m (deviceByteAddr ca k b) (beatByte c.word b)

/-- `DevWrite(ha0, k, word, mask)` (`20_memory.md` R65). -/
def deviceWrite (ca : CommandWord) (k : Nat) (c : ShiftCall) (m : Memory) : Memory :=
  deviceStoreBeat ca k c 3 (deviceStoreBeat ca k c 2 (deviceStoreBeat ca k c 1 (deviceStoreBeat ca k c 0 m)))

/-- A byte's content: what a transmit has stored there, and where none has, what the device held initially, `init`, which
is any value (`93_implementation_defined.md` U10) and thus the argument of whoever speaks of it. -/
def deviceByte (init : Nat → Byte) (m : Memory) (a : Nat) : Byte :=
  (m.byte a).getD (init a)

/-- `DevRead(ha0, k)` (`20_memory.md` R64), for a device whose initial content is `init`. -/
def deviceRead (init : Nat → Byte) (ca : CommandWord) (k : Nat) (m : Memory) : Word :=
  deviceByte init m (deviceByteAddr ca k 0) ++ deviceByte init m (deviceByteAddr ca k 1) ++
    deviceByte init m (deviceByteAddr ca k 2) ++ deviceByte init m (deviceByteAddr ca k 3)

end Sys2Proof.Machine
end

