-- ==== Sys2Proof/Machine/CdcQueue.lean ====
section
/-! DEFINITION. The clock-domain-crossing queue (`46_cdc_queue.md` section 1): outputs, ticks, side resets, flush. -/

namespace Sys2Proof.Machine

/-- `CDC_DEPTH` (`46_cdc_queue.md` R260). -/
def queueDepth (q : Queue) : Nat :=
  2 ^ q.cfg.depthLog

/-- Pointers count modulo twice the depth (`10_state.md` R28). -/
def pointerModulus (q : Queue) : Nat :=
  2 * queueDepth q

/-! ### Flush bookkeeping (`46_cdc_queue.md` R268, R269; log entry 6) -/

/-- One more reset tick of a side since the instant T. -/
def oneMoreTick (n : Nat) : Nat :=
  min Config.syncStages (n + 1)

/-- A side goes into reset: whether that is part of a clean flush is a free value. -/
def enterReset (ident : Nat) (f : Flush) : Flush :=
  { f with vouched := Config.flushVouched ident f.number, number := f.number + 1 }

/-- The instant T: both sides are in reset and both pointers 0, and the flush begins anew. -/
def flushInstant (f : Flush) : Flush :=
  { f with wIn := true, rIn := true, both := true, wGood := 0, rGood := 0, unclean := false }

/-- The flush's progress after a write-side reset tick. With the read side in reset too, the first one is the instant
T. -/
def flushWriteReset (ident : Nat) (f : Flush) : Flush :=
  if f.wIn then
    if f.both then { f with wGood := oneMoreTick f.wGood } else f
  else if f.rIn then flushInstant (enterReset ident f)
  else { enterReset ident f with wIn := true, both := false }

/-- The flush's progress after a read-side reset tick. With the write side in reset too, the first one is the instant
T. -/
def flushReadReset (ident : Nat) (f : Flush) : Flush :=
  if f.rIn then
    if f.both then { f with rGood := oneMoreTick f.rGood } else f
  else if f.wIn then flushInstant (enterReset ident f)
  else { enterReset ident f with rIn := true, both := false }

/-- The write side has stayed in reset long enough since T, and the read side has not run too early since
(`46_cdc_queue.md` R268). -/
def writeMayRelease (f : Flush) : Bool :=
  f.both && decide (Config.syncStages ≤ f.wGood)

/-- The read side has stayed in reset long enough since T, and the write side has not run too early since
(`46_cdc_queue.md` R268). -/
def readMayRelease (f : Flush) : Bool :=
  f.both && decide (Config.syncStages ≤ f.rGood)

/-- A running cycle of the write side goes by the rules (`46_cdc_queue.md` R268, R269): no unclean reset since the last
flush; its own reset, if it comes out of one, was long enough; and the read side, if it is in reset, has been so long
enough too, or is so in a flush that is clean. -/
def writeTrusted (f : Flush) : Bool :=
  !f.unclean && (!f.wIn || writeMayRelease f) && (!f.rIn || readMayRelease f || f.vouched)

/-- The same for a running cycle of the read side. -/
def readTrusted (f : Flush) : Bool :=
  !f.unclean && (!f.rIn || readMayRelease f) && (!f.wIn || writeMayRelease f || f.vouched)

/-- A free pointer value, of the pointers' width (`46_cdc_queue.md` R269). -/
def anyPointer (q : Queue) (slot : Nat) : Nat :=
  Config.freePointer q.cfg.ident (q.generation + 1) slot % pointerModulus q

/-- In an unclean reset and after it, until the next clean flush, the contents and both occupancy views are unspecified
(`46_cdc_queue.md` R269, `93_implementation_defined.md` U4): no entry is known, and every pointer and stage is a free
value, but for the pointer of a side that is held in reset, which is 0 (R266, R267). -/
def scramble (q : Queue) : Queue :=
  { q with
    mem := []
    wptr := if q.flush.wIn then 0 else anyPointer q 0
    rptr := if q.flush.rIn then 0 else anyPointer q 1
    rptrW1 := anyPointer q 2
    rptrW2 := anyPointer q 3
    wptrR1 := anyPointer q 4
    wptrR2 := anyPointer q 5
    flush := { q.flush with both := false, unclean := true }
    generation := q.generation + 1 }

/-- The write side is out of reset. -/
def outOfWriteReset (q : Queue) : Queue :=
  { q with flush := { q.flush with wIn := false } }

/-- The read side is out of reset. -/
def outOfReadReset (q : Queue) : Queue :=
  { q with flush := { q.flush with rIn := false } }

/-- The queue as a running cycle of the write side finds it: fresh free values in every cycle that nothing vouches for. -/
def releaseWrite (q : Queue) : Queue :=
  if writeTrusted q.flush then outOfWriteReset q else scramble (outOfWriteReset q)

/-- The queue as a running cycle of the read side finds it: fresh free values in every cycle that nothing vouches for. -/
def releaseRead (q : Queue) : Queue :=
  if readTrusted q.flush then outOfReadReset q else scramble (outOfReadReset q)

/-! ### Outputs -/

/-- `level_w`, the write side's count of entries (`46_cdc_queue.md` R263). -/
def levelW (q : Queue) : Nat :=
  (q.wptr + pointerModulus q - q.rptrW2) % pointerModulus q

/-- The write side has room, by its own view (`46_cdc_queue.md` R263). -/
def hasRoom (q : Queue) : Bool :=
  levelW q != queueDepth q

/-- `sink.ready` (`46_cdc_queue.md` R263). -/
def sinkReady (rst : Bool) (q : Queue) : Bool :=
  !rst && hasRoom (releaseWrite q)

/-- The read side sees an entry (`46_cdc_queue.md` R264). -/
def hasEntry (q : Queue) : Bool :=
  q.rptr != q.wptrR2

/-- `source.valid` (`46_cdc_queue.md` R264). -/
def sourceValid (rst : Bool) (q : Queue) : Bool :=
  !rst && hasEntry (releaseRead q)

/-- A storage entry; one that no push has written is a free value of the payload's width (`10_state.md` R27). -/
def queueEntry (q : Queue) (i : Nat) : Nat :=
  match cellRead q.mem i with
  | some v => v
  | none => Config.freeEntry q.cfg.ident q.generation i % 2 ^ q.cfg.width

/-- The head entry, shown without a request (`46_cdc_queue.md` R264). -/
def headEntry (q : Queue) : Nat :=
  queueEntry q (q.rptr % queueDepth q)

/-- `source.data` (`46_cdc_queue.md` R264). -/
def sourceData (q : Queue) : Nat :=
  headEntry (releaseRead q)

/-! ### Ticks -/

/-- The read pointer's synchroniser into the write domain (`46_cdc_queue.md` R262, R265). -/
def syncReadPointer (q : Queue) : Queue :=
  { q with rptrW2 := q.rptrW1, rptrW1 := q.rptr }

/-- The write pointer's synchroniser into the read domain (`46_cdc_queue.md` R262, R270). -/
def syncWritePointer (q : Queue) : Queue :=
  { q with wptrR2 := q.wptrR1, wptrR1 := q.wptr }

/-- The write-side tick with `rst_w` = 1 (`46_cdc_queue.md` R266). -/
def writeResetTick (q : Queue) : Queue :=
  { syncReadPointer q with wptr := 0, flush := flushWriteReset q.cfg.ident q.flush, accepted := false }

/-- A push happens at a running write side: `sink.valid` and `sink.ready` (`46_cdc_queue.md` R265). -/
def pushes (valid : Bool) (q : Queue) : Bool :=
  valid && hasRoom q

/-- The write-side tick with `rst_w` = 0 (`46_cdc_queue.md` R265): entry and pointer are written at a push. -/
def writeRunTick (valid : Bool) (data : Nat) (q : Queue) : Queue :=
  { syncReadPointer q with
    mem := if pushes valid q then cellWrite q.mem (q.wptr % queueDepth q) (data % 2 ^ q.cfg.width) else q.mem
    wptr := if pushes valid q then (q.wptr + 1) % pointerModulus q else q.wptr
    accepted := pushes valid q }

/-- One write-side tick (`46_cdc_queue.md` R276). -/
def queueWriteTick (rst valid : Bool) (data : Nat) (q : Queue) : Queue :=
  if rst then writeResetTick q else writeRunTick valid data (releaseWrite q)

/-- The read-side tick with `rst_r` = 1 (`46_cdc_queue.md` R267). -/
def readResetTick (q : Queue) : Queue :=
  { syncWritePointer q with rptr := 0, flush := flushReadReset q.cfg.ident q.flush, popped := none }

/-- A pop happens at a running read side: `source.valid` and `source.ready` (`46_cdc_queue.md` R270). -/
def pops (ready : Bool) (q : Queue) : Bool :=
  hasEntry q && ready

/-- The read-side tick with `rst_r` = 0 (`46_cdc_queue.md` R270): a pop takes the head entry and moves the pointer. -/
def readRunTick (ready : Bool) (q : Queue) : Queue :=
  { syncWritePointer q with
    rptr := if pops ready q then (q.rptr + 1) % pointerModulus q else q.rptr
    popped := if pops ready q then some (headEntry q) else none }

/-- One read-side tick (`46_cdc_queue.md` R276). -/
def queueReadTick (rst ready : Bool) (q : Queue) : Queue :=
  if rst then readResetTick q else readRunTick ready (releaseRead q)

end Sys2Proof.Machine
end

