-- ==== Sys2Proof/Machine/PulseCrossing.lean ====
section
/-! DEFINITION. The pulse crossing (`46_cdc_queue.md` section 2). -/

namespace Sys2Proof.Machine

/-- The source-domain tick (`46_cdc_queue.md` R272); its domain's reset clears the toggle (R275 (e)). -/
def crossingSourceTick (rst pulse : Bool) (c : Crossing) : Crossing :=
  if rst then { c with tgl := false }
  else if pulse then { c with tgl := !c.tgl }
  else c

/-- `edge`, from the values before the tick (`46_cdc_queue.md` R273). -/
def crossingEdge (c : Crossing) : Bool :=
  xor c.t2 c.t3

/-- The stretcher's next count (`46_cdc_queue.md` R274): reload wins over decrement. -/
def stretchNext (resetStretch : Nat) (c : Crossing) : Nat :=
  if crossingEdge c then resetStretch else c.stretchCnt - 1

/-- The destination-domain tick (`46_cdc_queue.md` R273, R274); its domain's reset clears its registers (R275 (e)). -/
def crossingDestTick (rst : Bool) (resetStretch : Nat) (c : Crossing) : Crossing :=
  if rst then { c with t1 := false, t2 := false, t3 := false, stretchCnt := 0 }
  else { c with t1 := c.tgl, t2 := c.t1, t3 := c.t2, stretchCnt := stretchNext resetStretch c }

/-- `pulse_out` (`46_cdc_queue.md` R274). -/
def pulseOut (c : Crossing) : Bool :=
  decide (0 < c.stretchCnt)

end Sys2Proof.Machine
end

