-- ==== Sys2Proof/Machine/Flags.lean ====
section
/-! DEFINITION. Flags, named booleans and comparisons: the strobe qualifier, the acknowledgment, the hint, the supervisor's
two ceilings, the engines' `last_of_*`. -/

namespace Sys2Proof.Machine

/-- The code of `LINEAR_BURST` (`30_encoding.md` R86). -/
def linearBurst : BitVec 3 := 0b010

/-- The code of `END_OF_BURST` (`30_encoding.md` R86). -/
def endOfBurst : BitVec 3 := 0b111

/-- The code of `CLASSIC` (`30_encoding.md` R86). -/
def classicCycle : BitVec 3 := 0b000

/-- A request: `cyc` and `stb` (`30_encoding.md` R85). -/
def busRequest (b : BusIn) : Bool :=
  b.cyc && b.stb

/-- The burst-continue hint of the request on the bus (`42_protocol_fsm.md` R150, R155; `30_encoding.md` R87: the only test
made on `cti` is equality with `LINEAR_BURST`). -/
def burstHint (b : BusIn) : Bool :=
  b.cyc && b.stb && b.cti == linearBurst

/-- The strobe qualifier (`42_protocol_fsm.md` R141): previous sample low, current sample high. -/
def qual (f : Fsm) (p : Phy) : Bool :=
  !f.strobeLast && p.rxStrobe.getLsbD 3

/-- `ack`, a function of `state` alone (`42_protocol_fsm.md` R162). -/
def ackOf (x : FsmState) : Bool :=
  match x with
  | .readAck => true
  | .wPrep => true
  | .timeout => true
  | .idle => false
  | .cmd => false
  | .rwdsWait => false
  | .readStart => false
  | .readBurst => false
  | .latencyWrite => false
  | .writeBurst => false
  | .writeFinish => false
  | .cleanup => false

/-- The burst ceiling's comparison, `burst_cnt < 512` (`43_burst_timeout_supervisor.md` R181). -/
def belowBurstMax (f : Fsm) : Bool :=
  decide (f.burstCnt.toNat < Config.burstMax)

/-- The timeout ceiling's comparison, `phase_cnt = 127` (`43_burst_timeout_supervisor.md` R183). -/
def phaseAtBound (f : Fsm) : Bool :=
  f.phaseCnt.toNat + 1 == Config.timeoutCycles

/-- The last cycle of the command window, `phase_cnt = 3` (`42_protocol_fsm.md` R145). -/
def commandDone (f : Fsm) : Bool :=
  f.phaseCnt.toNat + 1 == Config.cmdCycles

/-- The last cycle of the write latency, `phase_cnt = WRITE_LATENCY - 1` (`42_protocol_fsm.md` R154). -/
def latencyDone (p : Params) (f : Fsm) : Bool :=
  f.phaseCnt.toNat + 1 == p.writeLatency

/-- A further word of the burst may be started (`42_protocol_fsm.md` R151, R156). -/
def mayContinue (f : Fsm) : Bool :=
  f.contHint && belowBurstMax f

/-- This cycle's tick captures a word, `read_data <- rx_word` (`20_memory.md` R64; `42_protocol_fsm.md` R148, R151),
unless it is a tick with `rst` = 1, of which `FaithfulCapture` speaks (log entry 4). -/
def captureNow (f : Fsm) (p : Phy) : Bool :=
  match f.state with
  | .readStart => qual f p
  | .readBurst => mayContinue f && qual f p
  | .idle => false
  | .cmd => false
  | .rwdsWait => false
  | .readAck => false
  | .latencyWrite => false
  | .wPrep => false
  | .writeBurst => false
  | .writeFinish => false
  | .timeout => false
  | .cleanup => false

/-! ### Engine comparisons (`45_dma_engines.md` R233), on the live registers -/

/-- `last_of_transfer`. -/
def lastOfTransfer (g : Engine) : Bool :=
  g.wordCnt == g.transferSize - 1

/-- `last_of_burst`. -/
def lastOfBurst (g : Engine) : Bool :=
  lastOfTransfer g || g.bwordCnt == g.burstSize - 1

/-- `est = E_ACTIVE`. -/
def engActive (g : Engine) : Bool :=
  g.est == .active

/-! ### The five named conditions (`60_exceptions.md`) -/

/-- The conditions X1 to X5 (`60_exceptions.md` R290 to R294). -/
inductive Condition where
  | protocolTimeout
  | overflow (e : EngineId)
  | underflow (e : EngineId)
  | burstLimitReached
  | resetDuringTransfer (e : EngineId)
  deriving DecidableEq, Repr

/-- A condition's code (`60_exceptions.md`, summary table). -/
def conditionCode (c : Condition) : String :=
  match c with
  | .protocolTimeout => "X1"
  | .overflow _ => "X2"
  | .underflow _ => "X3"
  | .burstLimitReached => "X4"
  | .resetDuringTransfer _ => "X5"

/-- X1, `timeout_now` (`60_exceptions.md` R290). -/
def timeoutNow (f : Fsm) (p : Phy) : Bool :=
  (f.state == .rwdsWait || f.state == .readStart) && phaseAtBound f && !qual f p

/-- X4 (`60_exceptions.md` R293). -/
def burstLimitNow (f : Fsm) : Bool :=
  (f.state == .readBurst || f.state == .writeBurst) && f.contHint && f.burstCnt.toNat == Config.burstMax

/-- X5 (`60_exceptions.md` R294): a `reset` pulse to a busy engine. -/
def resetDuringTransferNow (resetPulse : Bool) (g : Engine) : Bool :=
  resetPulse && g.busy

end Sys2Proof.Machine
end

