-- ==== Sys2Proof/Machine/PhyShift.lean ====
section
/-! DEFINITION. The PHY shift layer (`40_phy_shift.md`): output registers, input pipeline, delay tap, pin drive. -/

namespace Sys2Proof.Machine

/-- `shiftOut(w, m)` (`40_phy_shift.md` R112). -/
def phyShiftOut (c : ShiftCall) (p : Phy) : Phy :=
  { p with txWord := c.word, txMask := c.mask, txValid := true }

/-- A tick without a call queues the idle word (`40_phy_shift.md` R113, `30_encoding.md` R98). -/
def phyQueueIdle (p : Phy) : Phy :=
  { p with txWord := 0, txMask := 0b1111, txValid := false }

/-- The output registers after a tick with or without a call (`40_phy_shift.md` R112, R113). -/
def phyTransmit (call : Option ShiftCall) (p : Phy) : Phy :=
  match call with
  | some c => phyShiftOut c p
  | none => phyQueueIdle p

/-- What is on the lines in a cycle, `env` being what the environment drives there: lanes that the core drives carry its
own output (`40_phy_shift.md` R111, R114), also for the sampler: "while the core drives the lanes it samples its own
output" (R115); the other lanes carry what the environment drives (`93_implementation_defined.md` U2). -/
def linesSampled (f : Fsm) (x : Phy) (env : Pins) : Pins where
  d0 := if f.dqOe then beatByte x.txWord 0 else env.d0
  d1 := if f.dqOe then beatByte x.txWord 1 else env.d1
  d2 := if f.dqOe then beatByte x.txWord 2 else env.d2
  d3 := if f.dqOe then beatByte x.txWord 3 else env.d3
  s0 := if f.rwdsOe then beatStrobe x.txMask 0 else env.s0
  s1 := if f.rwdsOe then beatStrobe x.txMask 1 else env.s1
  s2 := if f.rwdsOe then beatStrobe x.txMask 2 else env.s2
  s3 := if f.rwdsOe then beatStrobe x.txMask 3 else env.s3

/-- The 32 bits of four sampled beats, beat 0 most significant (`40_phy_shift.md` R115, `30_encoding.md` R98). -/
def pinsWord (p : Pins) : Word :=
  p.d0 ++ p.d1 ++ p.d2 ++ p.d3

/-- The four strobe samples, bit 3 the one of beat 0 (`40_phy_shift.md` R115, R116). -/
def pinsStrobe (p : Pins) : BitVec 4 :=
  BitVec.ofBool p.s0 ++ BitVec.ofBool p.s1 ++ BitVec.ofBool p.s2 ++ BitVec.ofBool p.s3

/-- The first half-cycle's samples, held until the tick (`10_state.md` R21, `40_phy_shift.md` R115). -/
def pinsHalf0 (p : Pins) : BitVec 18 :=
  p.d0 ++ p.d1 ++ BitVec.ofBool p.s0 ++ BitVec.ofBool p.s1

/-- `sampleIn`: every tick, in every state, the input pipeline takes the samples of the lines (`40_phy_shift.md` R115). -/
def phySample (pins : Pins) (p : Phy) : Phy :=
  { p with rxWord := pinsWord pins, rxStrobe := pinsStrobe pins, rxHalf0 := pinsHalf0 pins }

/-- `adjustDelay` under the control vector load, move, direction (`40_phy_shift.md` R118): load wins over move, the tap
saturates at 0 and `DELAY_TAP_MAX`. -/
def adjustDelay (tapMax : Nat) (dly : BitVec 3) (tap : Nat) : Nat :=
  if dly.getLsbD 2 then 0
  else if dly.getLsbD 1 then
    if dly.getLsbD 0 then tap - 1 else min (tap + 1) tapMax
  else tap

/-- The control vector loads or moves the tap (`40_phy_shift.md` R118). -/
def dlyMoves (dly : BitVec 3) : Bool :=
  dly.getLsbD 2 || dly.getLsbD 1

/-- One `sys` tick of the PHY (`40_phy_shift.md` R112, R113, R115, R118). -/
def phyTick (p : Params) (pins : Pins) (dly : BitVec 3) (call : Option ShiftCall) (x : Phy) : Phy :=
  { phySample pins (phyTransmit call x) with delayTap := adjustDelay p.delayTapMax dly x.delayTap }

/-- What the core drives on the pins in a cycle (`40_phy_shift.md` R111, `20_memory.md` R62): `none` for released lines. -/
structure PinDrive where
  csN : Bool
  clockToggles : Bool
  data : Option Word
  strobe : Option (BitVec 4)
  devRst : Bool
  deriving DecidableEq, Repr

/-- The pin drive, a function of registers only (`40_phy_shift.md` R111). -/
def pinDrive (f : Fsm) (p : Phy) : PinDrive where
  csN := !f.cs
  clockToggles := f.clkEn
  data := if f.dqOe then some p.txWord else none
  strobe := if f.rwdsOe then some p.txMask else none
  devRst := f.devRst

/-- Pins looped back: every beat driven is the beat sampled (`40_phy_shift.md` R117). -/
def loopbackPins (p : Phy) : Pins where
  d0 := beatByte p.txWord 0
  d1 := beatByte p.txWord 1
  d2 := beatByte p.txWord 2
  d3 := beatByte p.txWord 3
  s0 := beatStrobe p.txMask 0
  s1 := beatStrobe p.txMask 1
  s2 := beatStrobe p.txMask 2
  s3 := beatStrobe p.txMask 3

end Sys2Proof.Machine
end

