-- ==== Sys2Proof/Machine/Operands.lean ====
section
/-! DEFINITION. What each component finds on its lines in a cycle: the adapter's inputs behind the arbiter, the routed
acknowledgment, the streaming ports, the register surface, the `sys` side of each queue. All are functions of the state
before the tick (`00_scope.md` R7). -/

namespace Sys2Proof.Machine

/-! ### Acknowledgment and read data (`44_bus_adapter.md` section 2) -/

/-- The adapter's `ack` in this cycle (`42_protocol_fsm.md` R162, `44_bus_adapter.md` R198). -/
def ackNow (s : State) : Bool :=
  ackOf s.fsm.state

/-- `ack_e`: the acknowledgment as the arbiter routes it to an engine (`45_dma_engines.md` R211,
`70_reset_and_hazards.md` R333). -/
def ackTo (s : State) (e : EngineId) : Bool :=
  ackNow s && s.inp.grant == .engine e

/-- The word the bus shows as `read_data` (`44_bus_adapter.md` R199): the register, but a free value with a forced
acknowledgment (R200, `93_implementation_defined.md` U1). -/
def busReadData (s : State) : Word :=
  if s.fsm.state = .timeout then Config.undefinedReadData s.free else s.fsm.readData

/-! ### The `sys` side of a queue -/

/-- A queue's lines at rest. -/
def QueueIn.idle : QueueIn :=
  ⟨false, .lines false false 0, ⟨false, false, false, 0⟩⟩

/-- The lines of queue `i`. -/
def queueLines (s : State) (i : Nat) : QueueIn :=
  (s.inp.queues[i]?).getD QueueIn.idle

/-- The reset of queue `i`'s `sys` side in this cycle: its own line, or the system reset, which acts there as that side's
reset (`70_reset_and_hazards.md` R322). -/
def queueSideRst (s : State) (i : Nat) : Bool :=
  s.inp.rst || (queueLines s i).rst

/-- Queue `i`, if that side of it is the one in `sys`. An engine's port can face no other: "direct register-to-register
paths across domains are disallowed by design" (`46_cdc_queue.md` R260, R261, R277). -/
def sysQueue (s : State) (side : QueueSide) (i : Nat) : Option Queue :=
  match s.queues[i]? with
  | some q => if q.cfg.sysSide = side then some q else none
  | none => none

/-- `sink.ready` of queue `i`, whose write side is in `sys` (`46_cdc_queue.md` R263). DESIGN CHOICE, log entry 25: 0 where
the platform has no such queue or its write side is not in `sys`. -/
def queueSinkReady (s : State) (i : Nat) : Bool :=
  match sysQueue s .write i with
  | some q => sinkReady (queueSideRst s i) q
  | none => false

/-- `source.valid` of queue `i`, whose read side is in `sys` (`46_cdc_queue.md` R264). DESIGN CHOICE, log entry 25: 0
where the platform has no such queue or its read side is not in `sys`. -/
def queueSourceValid (s : State) (i : Nat) : Bool :=
  match sysQueue s .read i with
  | some q => sourceValid (queueSideRst s i) q
  | none => false

/-- `source.data` of queue `i` (`46_cdc_queue.md` R264). DESIGN CHOICE, log entry 25: where the platform has no such queue
or its read side is not in `sys`, and there is thus never a `source.valid`, the lines carry 0. -/
def queueSourceData (s : State) (i : Nat) : Nat :=
  match sysQueue s .read i with
  | some q => sourceData q
  | none => 0

/-! ### The streaming port of an engine (`45_dma_engines.md` R210, R240 to R242; `46_cdc_queue.md` R277) -/

/-- The partner's own level: `source.ready` for the writer, `sink.valid` for the reader. -/
def partnerLevel (s : State) (e : EngineId) : Bool :=
  match (s.inp.eng e).partner, e with
  | .level on _, _ => on
  | .queue i, .writer => queueSinkReady s i
  | .queue i, .reader => queueSourceValid s i

/-- `sink.data` of the reader's port, as its partner drives it. -/
def sinkDataIn (s : State) : Word :=
  match s.inp.reader.partner with
  | .level _ d => d
  | .queue i => BitVec.ofNat 32 (queueSourceData s i)

/-- The engine's own level on its port: active and acknowledged (`45_dma_engines.md` R241, R242). -/
def engineLevel (s : State) (e : EngineId) : Bool :=
  engActive (s.engine e) && ackTo s e

/-- `valid` of an engine's streaming port: the source end drives it (`30_encoding.md` R89). -/
def strmValid (s : State) (e : EngineId) : Bool :=
  match e with
  | .writer => engineLevel s .writer
  | .reader => partnerLevel s .reader

/-- `ready` of an engine's streaming port: the sink end drives it (`30_encoding.md` R89). -/
def strmReady (s : State) (e : EngineId) : Bool :=
  match e with
  | .writer => partnerLevel s .writer
  | .reader => engineLevel s .reader

/-- `data` of an engine's streaming port (`45_dma_engines.md` R240, R241). -/
def strmData (s : State) (e : EngineId) : Word :=
  match e with
  | .writer => busReadData s
  | .reader => sinkDataIn s

/-- A word moves (`30_encoding.md` R89). -/
def strmTransfer (s : State) (e : EngineId) : Bool :=
  strmValid s e && strmReady s e

/-- X2 (`45_dma_engines.md` R243). -/
def overflowNow (s : State) (e : EngineId) : Bool :=
  strmReady s e && !strmValid s e

/-- X3 (`45_dma_engines.md` R244). -/
def underflowNow (s : State) (e : EngineId) : Bool :=
  strmValid s e && !strmReady s e

/-- `transfer_complete` (`45_dma_engines.md` R233). DESIGN CHOICE, log entry 28: R233's formula also in the very cycle of
a `reset` pulse, where R294 can be read as keeping the signal down. -/
def transferCompleteNow (s : State) (e : EngineId) : Bool :=
  engActive (s.engine e) && ackTo s e && lastOfTransfer (s.engine e)

/-! ### The bus master of an engine (`45_dma_engines.md` section 5) -/

/-- `adr` (`45_dma_engines.md` R237): word index of the live `start_address` plus `word_cnt`; bits 1:0 are ignored
(`20_memory.md` R57). -/
def engineAdr (g : Engine) : BitVec 32 :=
  (g.startAddress.extractLsb' 2 30).setWidth 32 + g.wordCnt

/-- An engine's bus outputs (`45_dma_engines.md` R236 to R240). The writer drives no write data: those lines carry what
the environment puts there (`70_reset_and_hazards.md` R334). -/
def engineBus (s : State) (e : EngineId) : BusIn where
  cyc := engActive (s.engine e)
  stb := engActive (s.engine e)
  we := e == .reader
  sel := 0b1111
  adr := engineAdr (s.engine e)
  datW := match e with
    | .writer => s.inp.bus.datW
    | .reader => sinkDataIn s
  cti := if lastOfBurst (s.engine e) then endOfBurst else linearBurst

/-- The adapter's inputs in this cycle: the lines of the master the arbiter has connected (`20_memory.md` R68,
`44_bus_adapter.md` R190). -/
def adapterIn (s : State) : BusIn :=
  match s.inp.grant with
  | .external => s.inp.bus
  | .engine e => engineBus s e

/-! ### The register surface of an engine (`30_encoding.md` section 3) -/

/-- What a register read returns, from the values before the tick (`45_dma_engines.md` R218, R219). -/
def csrReadValue (g : Engine) (idx : BitVec 3) : Word :=
  if idx = 0 then g.startAddress
  else if idx = 1 then g.transferSize
  else if idx = 2 then g.burstSize
  else if idx = 3 then (BitVec.ofBool g.done).setWidth 32
  else 0

/-- The access is a write to register `idx`. -/
def csrWrites (a : Option CsrAccess) (idx : BitVec 3) : Bool :=
  match a with
  | some x => x.wr && x.idx == idx
  | none => false

/-- `enable_pulse` (`45_dma_engines.md` R216, R250). -/
def enablePulse (a : Option CsrAccess) : Bool :=
  csrWrites a 4

/-- `reset_pulse` (`45_dma_engines.md` R217, R250). -/
def resetPulse (a : Option CsrAccess) : Bool :=
  csrWrites a 5

/-- The write data of an access. -/
def csrData (a : Option CsrAccess) : Word :=
  match a with
  | some x => x.data
  | none => 0

/-- What the surface returns in this cycle; without a read it keeps showing the last result. -/
def csrResult (s : State) (e : EngineId) : Word :=
  match (s.inp.eng e).csr with
  | some x => if x.wr then (s.out.eng e).csrData else csrReadValue (s.engine e) x.idx
  | none => (s.out.eng e).csrData

/-- The byte offset of register `idx` from the engine's base (`30_encoding.md` R90). -/
def csrOffset (idx : BitVec 3) : BitVec 32 :=
  idx.setWidth 32 <<< 2

/-- The register index of a byte offset that the platform routes to an engine; one outside 0x00 to 0x14 acts as an
undefined index (`30_encoding.md` R94). DESIGN CHOICE, log entry 27: so does an offset inside that range that is not a
multiple of 4, of which the spec does not speak. -/
def csrIndexOfOffset (offset : BitVec 32) : BitVec 3 :=
  if offset = 0x00 then 0 else if offset = 0x04 then 1 else if offset = 0x08 then 2
  else if offset = 0x0C then 3 else if offset = 0x10 then 4 else if offset = 0x14 then 5 else 7

/-- The register index that a byte address of the platform's map selects on engine `e` (`20_memory.md` R53, R60). DESIGN
CHOICE, log entry 30: `CSR_BASE` is a byte address, and the offset is the difference. -/
def csrIndexOfAddress (p : Params) (e : EngineId) (addr : BitVec 32) : BitVec 3 :=
  csrIndexOfOffset (addr - csrBaseOf p e)

/-- The bus word index of a byte address of the platform's map (`20_memory.md` R51, R60). DESIGN CHOICE, log entry 30:
`CTRL_BUS_BASE` is a byte address, it is subtracted, and the two low bits of the difference are dropped; R60 gives neither
its unit nor how an address selects a word. -/
def busWordOfAddress (p : Params) (addr : BitVec 32) : BitVec 32 :=
  (addr - p.ctrlBusBase) >>> 2

/-! ### Outputs of the cycle -/

/-- One engine's outputs (`45_dma_engines.md` R211, R248). -/
def engineOut (s : State) (e : EngineId) : EngOut where
  csrData := csrResult s e
  valid := strmValid s e
  ready := strmReady s e
  data := strmData s e
  transferComplete := transferCompleteNow s e
  overflow := overflowNow s e
  underflow := underflowNow s e

/-- Every combinational output of the cycle (`00_scope.md` R7). -/
def outputsNow (s : State) : Outputs where
  ack := ackNow s
  readData := busReadData s
  writer := engineOut s .writer
  reader := engineOut s .reader

/-! ### Conditions and codes of the cycle -/

/-- Whether a condition holds in this cycle (`60_exceptions.md`: "a sampled boolean evaluated and handled within the same
cycle it is observed"). -/
def conditionHolds (s : State) (c : Condition) : Bool :=
  match c with
  | .protocolTimeout => timeoutNow s.fsm s.phy
  | .overflow e => overflowNow s e
  | .underflow e => underflowNow s e
  | .burstLimitReached => burstLimitNow s.fsm
  | .resetDuringTransfer e => resetDuringTransferNow (resetPulse (s.inp.eng e).csr) (s.engine e)

/-- The code on the bus request vector, request, write enable, cycle type (`30_encoding.md` R85). -/
def busCode (b : BusIn) : BitVec 5 :=
  BitVec.ofBool (busRequest b) ++ BitVec.ofBool b.we ++ b.cti

/-- The code on an engine's streaming port, valid and ready (`30_encoding.md` R89). -/
def strmCode (s : State) (e : EngineId) : BitVec 2 :=
  BitVec.ofBool (strmValid s e) ++ BitVec.ofBool (strmReady s e)

/-- The code of a state of the protocol FSM (`30_encoding.md` R96). -/
def fsmCode (x : FsmState) : Nat :=
  match x with
  | .idle => 0
  | .cmd => 1
  | .rwdsWait => 2
  | .readStart => 3
  | .readAck => 4
  | .readBurst => 5
  | .latencyWrite => 6
  | .wPrep => 7
  | .writeBurst => 8
  | .writeFinish => 9
  | .timeout => 10
  | .cleanup => 11

/-- The state with a given code, if there is one (`30_encoding.md` R96). -/
def fsmStateOfCode (n : Nat) : Option FsmState :=
  match n with
  | 0 => some .idle
  | 1 => some .cmd
  | 2 => some .rwdsWait
  | 3 => some .readStart
  | 4 => some .readAck
  | 5 => some .readBurst
  | 6 => some .latencyWrite
  | 7 => some .wPrep
  | 8 => some .writeBurst
  | 9 => some .writeFinish
  | 10 => some .timeout
  | 11 => some .cleanup
  | _ => none

/-- The code of an engine's state (`30_encoding.md` R97). -/
def engCode (x : EngState) : Nat :=
  match x with
  | .idle => 0
  | .active => 1

/-! ### Putting an operation on its port -/

/-- The external requester shows these lines to the adapter. -/
def State.putBus (s : State) (b : BusIn) : State :=
  { s with inp := { s.inp with grant := .external, bus := b } }

/-- The external requester shows a request (`30_encoding.md` R85). -/
def State.putRequest (s : State) (we : Bool) (cti : BitVec 3) (o : BusOperands) : State :=
  s.putBus ⟨true, true, we, o.sel, o.adr, o.datW, cti⟩

/-- The external requester shows no request; the lines beside the request vector stay as they are. -/
def State.putNoRequest (s : State) (we : Bool) (cti : BitVec 3) : State :=
  s.putBus { s.inp.bus with cyc := false, stb := false, we := we, cti := cti }

/-- The external requester requests at the address and in the direction of a command word (`41_command_encoder.md`
R131, R132): `adr[20:2]` = row, `adr[1:0]` = col. -/
def State.putCommand (s : State) (we : Bool) (row : BitVec 19) (col : BitVec 2) : State :=
  s.putBus { s.inp.bus with cyc := true, stb := true, we := we, adr := (row ++ col).setWidth 32 }

/-- The control plane accesses a register of an engine in this cycle (`30_encoding.md` R90). -/
def State.putCsr (s : State) (e : EngineId) (a : CsrAccess) : State :=
  s.setEngIn e { s.inp.eng e with csr := some a }

/-- The delay control vector of this cycle (`30_encoding.md` R95). -/
def State.putDly (s : State) (load move dir : Bool) : State :=
  { s with inp := { s.inp with dly := BitVec.ofBool load ++ BitVec.ofBool move ++ BitVec.ofBool dir } }

/-- The partner's half of an engine's streaming port in this cycle. It takes the place of whatever stood at the port, a
queue too, and stays there for later cycles (DESIGN CHOICE, log entry 26). -/
def State.putPartner (s : State) (e : EngineId) (on : Bool) (data : Word) : State :=
  s.setEngIn e { s.inp.eng e with partner := .level on data }

/-- What the environment drives on the pins in this cycle. -/
def State.putPins (s : State) (p : Pins) : State :=
  { s with inp := { s.inp with pins := p } }

/-- The external `start` input of an engine in this cycle. -/
def State.putStart (s : State) (e : EngineId) : State :=
  s.setEngIn e { s.inp.eng e with start := true }

/-- The `sys`-side lines of queue `q` in this cycle. They take the place of whatever drove that side, an engine too, and
stay there for later cycles (DESIGN CHOICE, log entry 26). -/
def State.putQueue (s : State) (q : Nat) (rst : Bool) (link : QueueLink) : State :=
  { s with inp := { s.inp with
      queues := setAt QueueIn.idle s.inp.queues q { queueLines s q with rst := rst, link := link } } }

/-- The far-side lines of queue `q` in this cycle of its domain. -/
def State.putFarQueue (s : State) (q : Nat) (l : FarIn) : State :=
  { s with inp := { s.inp with
      queues := setAt QueueIn.idle s.inp.queues q { queueLines s q with far := l } } }

/-- A crossing's lines at rest. -/
def CrossIn.idle : CrossIn :=
  ⟨false, false, false⟩

/-- The lines of crossing `x`. -/
def crossLines (s : State) (x : Nat) : CrossIn :=
  (s.inp.crossings[x]?).getD CrossIn.idle

/-- `pulse_in` of crossing `x`, whose source end is in `sys`, in this cycle. -/
def State.putPulse (s : State) (x : Nat) (pulse : Bool) : State :=
  { s with inp := { s.inp with
      crossings := setAt CrossIn.idle s.inp.crossings x { crossLines s x with pulse := pulse } } }

/-- `pulse_in` of crossing `x`, whose source end is the far one, in this cycle of that domain. -/
def State.putFarPulse (s : State) (x : Nat) (pulse : Bool) : State :=
  { s with inp := { s.inp with
      crossings := setAt CrossIn.idle s.inp.crossings x { crossLines s x with farPulse := pulse } } }

/-- The system reset input in this cycle (`70_reset_and_hazards.md` R320). -/
def State.putReset (s : State) : State :=
  { s with inp := { s.inp with rst := true } }

/-! ### What the lines carry into the next cycle -/

/-- One-cycle inputs return to rest after a tick; levels hold until the script changes them (log entry 3). -/
def EngIn.settle (l : EngIn) : EngIn :=
  { l with csr := none, start := false }

/-- A queue's side reset is held only for the cycles the script gives it. -/
def QueueIn.settle (l : QueueIn) : QueueIn :=
  { l with rst := false }

/-- The same for the far side, after a cycle of its domain. -/
def QueueIn.settleFar (l : QueueIn) : QueueIn :=
  { l with far := { l.far with rst := false } }

/-- A source pulse is a single cycle (`46_cdc_queue.md` R272). -/
def CrossIn.settle (l : CrossIn) : CrossIn :=
  { l with pulse := false }

/-- The same for a source end in a foreign domain, after a cycle of it. -/
def CrossIn.settleFar (l : CrossIn) : CrossIn :=
  { l with farPulse := false }

/-- The lines of the next `sys` cycle, as far as the script does not set them. -/
def Inputs.settle (l : Inputs) : Inputs :=
  { l with
    rst := false
    dly := 0
    writer := l.writer.settle
    reader := l.reader.settle
    queues := l.queues.map QueueIn.settle
    crossings := l.crossings.map CrossIn.settle }

/-- Queue `i`'s far side is in domain `d`. -/
def queueFarIn (d : Domain) (s : State) (i : Nat) : Bool :=
  match s.queues[i]? with
  | some q => q.cfg.farDomain == d
  | none => false

/-- Crossing `x`'s far end is in domain `d`. -/
def crossingFarIn (d : Domain) (s : State) (x : Nat) : Bool :=
  match s.crossings[x]? with
  | some c => c.farDomain == d
  | none => false

/-- The lines after a cycle of domain `d`, as far as the script does not set them: the single-cycle lines of its far
ends rest, every other line stays. -/
def State.settleFar (d : Domain) (s : State) : Inputs :=
  { s.inp with
    queues := tickFrom (fun i l => if queueFarIn d s i then l.settleFar else l) 0 s.inp.queues
    crossings := tickFrom (fun x l => if crossingFarIn d s x then l.settleFar else l) 0 s.inp.crossings }

end Sys2Proof.Machine
end

