-- ==== Sys2Proof/Machine/DmaEngine.lean ====
section
/-! DEFINITION. The streaming DMA engines' tick (`45_dma_engines.md`), rule by rule, in R250's order: a later rule's
assignment wins. -/

namespace Sys2Proof.Machine

/-- The configuration registers' writes (`45_dma_engines.md` R212 to R215, R219). -/
def engConfigure (a : Option CsrAccess) (g : Engine) : Engine :=
  { g with
    startAddress := if csrWrites a 0 then csrData a else g.startAddress
    transferSize := if csrWrites a 1 then csrData a else g.transferSize
    burstSize := if csrWrites a 2 then csrData a else g.burstSize }

/-- The start event of a cycle (`45_dma_engines.md` R220, R221), `enabled` being the value before the tick. -/
def startEvent (extSync : Bool) (l : EngIn) (g : Engine) : Bool :=
  if extSync then l.start && g.enabled else enablePulse l.csr

/-- A start event that takes effect (`45_dma_engines.md` R222, R223, R225). -/
def startOk (extSync : Bool) (l : EngIn) (g : Engine) : Bool :=
  startEvent extSync l g && !g.busy && g.transferSize != 0 && g.burstSize != 0

/-- The `enabled` latch (`45_dma_engines.md` R224). -/
def engEnable (pulse : Bool) (g : Engine) : Engine :=
  if pulse then { g with enabled := true } else g

/-- The effect of a start event (`45_dma_engines.md` R222). -/
def engStart (ok : Bool) (g : Engine) : Engine :=
  if ok then { g with busy := true, wordCnt := 0, bwordCnt := 0 } else g

/-- Opening an engine burst, `E_IDLE` to `E_ACTIVE` (`45_dma_engines.md` R231). -/
def engOpen (opens : Bool) (g : Engine) : Engine :=
  if opens then { g with est := .active, bwordCnt := 0 } else g

/-- The transfer's counter and flags at an acknowledged word (`45_dma_engines.md` R234, R235). -/
def engCountTransfer (last : Bool) (before g : Engine) : Engine :=
  if last then { g with wordCnt := 0, busy := false, done := true }
  else { g with wordCnt := before.wordCnt + 1 }

/-- The burst's counter and the FSM at an acknowledged word (`45_dma_engines.md` R234, R235). -/
def engCountBurst (last : Bool) (before g : Engine) : Engine :=
  if last then { g with bwordCnt := 0, est := .idle }
  else { g with bwordCnt := before.bwordCnt + 1 }

/-- A word acknowledged while active (`45_dma_engines.md` R234, R235); `before` holds the values before the tick. -/
def engAcknowledge (acked : Bool) (before g : Engine) : Engine :=
  if acked then
    engCountBurst (lastOfBurst before) before (engCountTransfer (lastOfTransfer before) before g)
  else g

/-- Aborting: the effect of a `reset` pulse in any state (`45_dma_engines.md` R226; condition X5 when busy,
`60_exceptions.md` R294). -/
def engAbort (pulse : Bool) (g : Engine) : Engine :=
  if pulse then
    { g with busy := false, done := false, enabled := false, est := .idle, wordCnt := 0, bwordCnt := 0 }
  else g

/-- One `sys` tick of one engine (`45_dma_engines.md` R250), from its lines, the routed acknowledgment and the
partner's level. -/
def engTick (extSync : Bool) (l : EngIn) (acked partnerOk : Bool) (g : Engine) : Engine :=
  engAbort (resetPulse l.csr)
    (engAcknowledge (engActive g && acked) g
      (engOpen (!engActive g && g.busy && partnerOk)
        (engStart (startOk extSync l g)
          (engEnable (enablePulse l.csr)
            (engConfigure l.csr g)))))

/-- One engine's registers after a `sys` tick of the machine. -/
def engineAfter (s : State) (e : EngineId) : Engine :=
  engTick (extSyncOf s.params e) (s.inp.eng e) (ackTo s e) (partnerLevel s e) (s.engine e)

end Sys2Proof.Machine
end

