-- ==== Sys2Proof/Machine/ProtocolFsm.lean ====
section
/-! DEFINITION. The protocol state machine (`42_protocol_fsm.md`): one definition per state, each covering the state's
outgoing rules; the supervisor's counters are the shared operations `enterState`, `stayCounting`, `countWord`. -/

namespace Sys2Proof.Machine

/-- `IDLE`: stay (R142) or take a request (R143). -/
def ruleIdle (b : BusIn) (f : Fsm) : FsmNext :=
  if busRequest b then
    { fsm := enterState .cmd (clearWindow
        { f with ca := encodeCommand b.adr b.we, cs := true, clkEn := true, dqOe := true })
      call := some ⟨commandHigh (encodeCommand b.adr b.we), 0⟩ }
  else { fsm := enterState .idle (clearWindow f), call := none }

/-- `CMD`: stay (R144) or leave after the fourth cycle (R145). -/
def ruleCmd (f : Fsm) : FsmNext where
  fsm :=
    if commandDone f then
      enterState (if isReadCommand f.ca then .rwdsWait else .latencyWrite) { f with dqOe := false }
    else stayCounting f
  call := if f.phaseCnt = 0 then some ⟨commandLow f.ca, 0⟩ else none

/-- A wait for the strobe: stay, or the timeout at the bound (R147, R149). -/
def waitForStrobe (f : Fsm) : Fsm :=
  if phaseAtBound f then takeTimeout f else stayCounting f

/-- `RWDS_WAIT`: qualified (R146) or waiting (R147). -/
def ruleRwdsWait (p : Phy) (f : Fsm) : FsmNext where
  fsm := if qual f p then enterState .readStart f else waitForStrobe f
  call := none

/-- Capture a word and acknowledge it in the next cycle (R148, R151). -/
def captureWord (p : Phy) (f : Fsm) : Fsm :=
  enterState .readAck { f with readData := p.rxWord }

/-- `READ_START`: capture (R148) or waiting (R149). -/
def ruleReadStart (p : Phy) (f : Fsm) : FsmNext where
  fsm := if qual f p then captureWord p f else waitForStrobe f
  call := none

/-- `READ_ACK`: one word delivered (R150). -/
def ruleReadAck (b : BusIn) (f : Fsm) : FsmNext where
  fsm := enterState .readBurst (countWord { f with contHint := burstHint b })
  call := none

/-- `READ_BURST`: the next word (R151) or the end of the window (R152). -/
def ruleReadBurst (p : Phy) (f : Fsm) : FsmNext where
  fsm :=
    if mayContinue f && qual f p then captureWord p f
    else enterState .idle (clearWindow { f with cs := false, clkEn := false })
  call := none

/-- `LATENCY_WRITE`: stay (R153) or drive data and strobe (R154). -/
def ruleLatencyWrite (p : Params) (f : Fsm) : FsmNext where
  fsm := if latencyDone p f then enterState .wPrep { f with dqOe := true, rwdsOe := true } else stayCounting f
  call := none

/-- `W_PREP`: one word consumed, queued to the pins and acknowledged (R155). -/
def ruleWPrep (b : BusIn) (f : Fsm) : FsmNext where
  fsm := enterState .writeBurst (countWord { f with contHint := burstHint b })
  call := some ⟨b.datW, ~~~b.sel⟩

/-- `WRITE_BURST`: the next word (R156) or the end of the window (R157). -/
def ruleWriteBurst (f : Fsm) : FsmNext where
  fsm := if mayContinue f then enterState .wPrep f else enterState .writeFinish f
  call := none

/-- `WRITE_FINISH`: the clock stops (R158). -/
def ruleWriteFinish (f : Fsm) : FsmNext where
  fsm := enterState .cleanup { f with clkEn := false }
  call := none

/-- `TIMEOUT`: the forced acknowledgment (R160). -/
def ruleTimeout (f : Fsm) : FsmNext where
  fsm := leaveTimeout f
  call := none

/-- `CLEANUP`: everything off, back to `IDLE` (R159). -/
def ruleCleanup (f : Fsm) : FsmNext where
  fsm := closeWindow f
  call := none

/-- The rule the state register selects (R140). -/
def fsmRule (p : Params) (b : BusIn) (x : Phy) (f : Fsm) : FsmNext :=
  match f.state with
  | .idle => ruleIdle b f
  | .cmd => ruleCmd f
  | .rwdsWait => ruleRwdsWait x f
  | .readStart => ruleReadStart x f
  | .readAck => ruleReadAck b f
  | .readBurst => ruleReadBurst x f
  | .latencyWrite => ruleLatencyWrite p f
  | .wPrep => ruleWPrep b f
  | .writeBurst => ruleWriteBurst f
  | .writeFinish => ruleWriteFinish f
  | .timeout => ruleTimeout f
  | .cleanup => ruleCleanup f

/-- What every tick writes in every state (R161): the strobe sample of the cycle that ends, and the device reset's
release (`70_reset_and_hazards.md` R326). -/
def everyTick (x : Phy) (f : Fsm) : Fsm :=
  { f with strobeLast := x.rxStrobe.getLsbD 0, devRst := false }

/-- The protocol FSM's rule in this cycle of the machine. -/
def fsmNow (s : State) : FsmNext :=
  fsmRule s.params (adapterIn s) s.phy s.fsm

/-- The controller's registers after a `sys` tick of the machine. -/
def fsmAfter (s : State) : Fsm :=
  everyTick s.phy (fsmNow s).fsm

end Sys2Proof.Machine
end

