-- ==== Sys2Proof/Machine/Tick.lean ====
section
/-! DEFINITION. The `sys` tick (`00_scope.md` R4, R6): every `sys` register from the same values before the edge; the
system reset; and the ticks of the foreign domains. -/

namespace Sys2Proof.Machine

/-! ### The `sys` side of queues and crossings -/

/-- `sink.valid` and `sink.data` at the `sys` write side of queue `i` (`46_cdc_queue.md` R277). -/
def queueOffer (s : State) (i : Nat) : Bool × Nat :=
  match (queueLines s i).link with
  | .lines valid _ data => (valid, data)
  | .engine => (strmValid s .writer, (strmData s .writer).toNat)

/-- `source.ready` at the `sys` read side of queue `i` (`46_cdc_queue.md` R277). -/
def queueTake (s : State) (i : Nat) : Bool :=
  match (queueLines s i).link with
  | .lines _ ready _ => ready
  | .engine => strmReady s .reader

/-- The `sys` side of queue `i` at a `sys` tick; the system reset acts there as that side's reset
(`70_reset_and_hazards.md` R322). -/
def queueSysTick (s : State) (i : Nat) (q : Queue) : Queue :=
  match q.cfg.sysSide with
  | .write => queueWriteTick (queueSideRst s i) (queueOffer s i).1 (queueOffer s i).2 q
  | .read => queueReadTick (queueSideRst s i) (queueTake s i) q

/-- The queues from number `i` on after a `sys` tick. -/
def queuesSysTick (s : State) (i : Nat) (qs : List Queue) : List Queue :=
  tickFrom (queueSysTick s) i qs

/-- The `sys` end of crossing `x` at a `sys` tick (`70_reset_and_hazards.md` R322). -/
def crossingSysTick (s : State) (x : Nat) (c : Crossing) : Crossing :=
  match c.sysSide with
  | .source => crossingSourceTick s.inp.rst (crossLines s x).pulse c
  | .dest => crossingDestTick s.inp.rst s.params.resetStretch c

/-- The crossings from number `x` on after a `sys` tick. -/
def crossingsSysTick (s : State) (x : Nat) (cs : List Crossing) : List Crossing :=
  tickFrom (crossingSysTick s) x cs

/-! ### The `sys` tick -/

/-- The `k`-th transmit of a write window reaches a word-faithful device (`20_memory.md` R65): at the tick of `W_PREP`,
with k the words transmitted in the window so far. Log entry 4. -/
def deviceAfter (call : Option ShiftCall) (s : State) : Memory :=
  match s.fsm.state, call with
  | .wPrep, some c => deviceWrite s.fsm.ca s.fsm.burstCnt.toNat c s.devMem
  | _, _ => s.devMem

/-- One more free bus word used, in the cycle of a forced acknowledgment (log entry 5). -/
def freeAfter (s : State) : Nat :=
  if s.fsm.state = .timeout then s.free + 1 else s.free

/-- In this cycle or an earlier one of the open window the tap is loaded or moved, which R336 forbids: "the samples of
that window are unspecified" (`40_phy_shift.md` R119). -/
def windowDisturbed (s : State) : Bool :=
  s.fsm.cs && (s.tapMoved || dlyMoves s.inp.dly)

/-- What the PHY's sampler finds on the lines in this cycle (`40_phy_shift.md` R115); in a window whose samples are
unspecified, any value on every lane, which the environment chooses (`93_implementation_defined.md` U3). -/
def linesNow (s : State) : Pins :=
  if windowDisturbed s then s.inp.pins else linesSampled s.fsm s.phy s.inp.pins

/-- A `sys` tick with `rst` = 0 and this `shiftOut` call (`00_scope.md` R6). -/
def runTickCalling (call : Option ShiftCall) (s : State) : State :=
  { s with
    fsm := fsmAfter s
    phy := phyTick s.params (linesNow s) s.inp.dly call s.phy
    writer := engineAfter s .writer
    reader := engineAfter s .reader
    queues := queuesSysTick s 0 s.queues
    crossings := crossingsSysTick s 0 s.crossings
    devMem := deviceAfter call s
    inp := s.inp.settle
    out := outputsNow s
    free := freeAfter s
    tapMoved := windowDisturbed s }

/-- A `sys` tick with `rst` = 0: the call is the one the FSM's rule makes (`40_phy_shift.md` R110). -/
def runTick (s : State) : State :=
  runTickCalling (fsmNow s).call s

/-- The `sys` registers at their reset values, before the far sides are looked at (`70_reset_and_hazards.md` R320). -/
def resetRegisters (s : State) : State :=
  { s with fsm := Fsm.reset, phy := Phy.reset, writer := Engine.reset, reader := Engine.reset }

/-- A `sys` tick with `rst` = 1 (`70_reset_and_hazards.md` R320, R322, R323): every `sys` register takes its reset value
whatever else the tick says; the queues' and crossings' `sys` sides are reset; the device's storage is kept. -/
def resetTick (s : State) : State :=
  { resetRegisters s with
    queues := queuesSysTick s 0 s.queues
    crossings := crossingsSysTick s 0 s.crossings
    inp := s.inp.settle
    out := outputsNow (resetRegisters s)
    tapMoved := false }

/-- One `sys` tick. -/
def sysTick (s : State) : State :=
  if s.inp.rst then resetTick s else runTick s

/-- One `sys` tick whose `shiftOut` call is given (`40_phy_shift.md` R112, R113). -/
def sysTickCalling (call : Option ShiftCall) (s : State) : State :=
  if s.inp.rst then resetTick s else runTickCalling call s

/-! ### The tick of a foreign domain (`00_scope.md` R5, R6) -/

/-- The far side of queue `i` at a tick of its domain, with the side's lines (`46_cdc_queue.md` R276). -/
def queueFarTick (s : State) (i : Nat) (q : Queue) : Queue :=
  match q.cfg.sysSide with
  | .read => queueWriteTick (queueLines s i).far.rst (queueLines s i).far.valid (queueLines s i).far.data q
  | .write => queueReadTick (queueLines s i).far.rst (queueLines s i).far.ready q

/-- The far end of crossing `x` at a tick of its domain, with the end's lines (`46_cdc_queue.md` R272 to R274). -/
def crossingFarTick (s : State) (x : Nat) (c : Crossing) : Crossing :=
  match c.sysSide with
  | .dest => crossingSourceTick (crossLines s x).farRst (crossLines s x).farPulse c
  | .source => crossingDestTick (crossLines s x).farRst s.params.resetStretch c

/-- The queues from number `i` on after a tick of domain `d`: those whose far side is in it have moved. -/
def queuesFarTick (d : Domain) (s : State) (i : Nat) (qs : List Queue) : List Queue :=
  tickFrom (fun n q => if q.cfg.farDomain = d then queueFarTick s n q else q) i qs

/-- The crossings from number `x` on after a tick of domain `d`: those whose far end is in it have moved. -/
def crossingsFarTick (d : Domain) (s : State) (x : Nat) (cs : List Crossing) : List Crossing :=
  tickFrom (fun n c => if c.farDomain = d then crossingFarTick s n c else c) x cs

/-- One tick of a foreign domain: one atomic step of every far end in it, and of nothing else (`00_scope.md` R5, R6,
`92_eei_decisions.md` D34). -/
def domainTick (d : Domain) (s : State) : State :=
  { s with
    queues := queuesFarTick d s 0 s.queues
    crossings := crossingsFarTick d s 0 s.crossings
    inp := s.settleFar d }

/-! ### Operations of one side of a queue or crossing, whichever domain it is in -/

/-- A write-side tick of queue `n` with these lines: the tick of the domain that side is in (`46_cdc_queue.md` R261). -/
def queueWriteStep (n : Nat) (rst valid : Bool) (data : Nat) (s : State) : Host.Outcome State Fault Refusal :=
  match s.queues[n]? with
  | none => .fault (.noSuchQueue n)
  | some q =>
    match q.cfg.sysSide with
    | .write => .next (sysTick (s.putQueue n rst (.lines valid false data)))
    | .read => .next (domainTick q.cfg.farDomain (s.putFarQueue n ⟨rst, valid, false, data⟩))

/-- A read-side tick of queue `n` with these lines: the tick of the domain that side is in (`46_cdc_queue.md` R261). -/
def queueReadStep (n : Nat) (rst ready : Bool) (s : State) : Host.Outcome State Fault Refusal :=
  match s.queues[n]? with
  | none => .fault (.noSuchQueue n)
  | some q =>
    match q.cfg.sysSide with
    | .read => .next (sysTick (s.putQueue n rst (.lines false ready 0)))
    | .write => .next (domainTick q.cfg.farDomain (s.putFarQueue n ⟨rst, false, ready, 0⟩))

/-- A source-domain tick of crossing `x` with this `pulse_in` (`46_cdc_queue.md` R272). -/
def crossingSourceStep (x : Nat) (pulse : Bool) (s : State) : Host.Outcome State Fault Refusal :=
  match s.crossings[x]? with
  | none => .fault (.noSuchCrossing x)
  | some c =>
    match c.sysSide with
    | .source => .next (sysTick (s.putPulse x pulse))
    | .dest => .next (domainTick c.farDomain (s.putFarPulse x pulse))

/-- A destination-domain tick of crossing `x` (`46_cdc_queue.md` R273, R274). -/
def crossingDestStep (x : Nat) (s : State) : Host.Outcome State Fault Refusal :=
  match s.crossings[x]? with
  | none => .fault (.noSuchCrossing x)
  | some c =>
    match c.sysSide with
    | .dest => .next (sysTick s)
    | .source => .next (domainTick c.farDomain s)

end Sys2Proof.Machine
end

