-- ==== Sys2Proof/Machine/BusOps.lean ====
section
/-! DEFINITION. The meanings of the bus requests (`44_bus_adapter.md`). The external requester shows the vector in
this cycle; the FSM looks at it where `42_protocol_fsm.md` R163 says. -/

namespace Sys2Proof.Machine

/-- BUS.NOP (`44_bus_adapter.md` R197): in `IDLE` nothing happens; in an acknowledgment cycle the hint becomes 0; else
the vector is not looked at. -/
def execBusNop (we : Bool) (cti : BitVec 3) (s : State) : Host.Outcome State Fault Refusal :=
  .next (sysTick (s.putNoRequest we cti))

/-- BUS.RD.CLASSIC (`44_bus_adapter.md` R192). -/
def execBusRdClassic (o : BusOperands) (s : State) : Host.Outcome State Fault Refusal :=
  .next (sysTick (s.putRequest false classicCycle o))

/-- BUS.RD.BURST (`44_bus_adapter.md` R194). -/
def execBusRdBurst (o : BusOperands) (s : State) : Host.Outcome State Fault Refusal :=
  .next (sysTick (s.putRequest false linearBurst o))

/-- BUS.RD.END (`44_bus_adapter.md` R192). -/
def execBusRdEnd (o : BusOperands) (s : State) : Host.Outcome State Fault Refusal :=
  .next (sysTick (s.putRequest false endOfBurst o))

/-- BUS.RD.RSVD.001 (`44_bus_adapter.md` R196). -/
def execBusRdRsvd001 (o : BusOperands) (s : State) : Host.Outcome State Fault Refusal :=
  .next (sysTick (s.putRequest false 0b001 o))

/-- BUS.RD.RSVD.011 (`44_bus_adapter.md` R196). -/
def execBusRdRsvd011 (o : BusOperands) (s : State) : Host.Outcome State Fault Refusal :=
  .next (sysTick (s.putRequest false 0b011 o))

/-- BUS.RD.RSVD.100 (`44_bus_adapter.md` R196). -/
def execBusRdRsvd100 (o : BusOperands) (s : State) : Host.Outcome State Fault Refusal :=
  .next (sysTick (s.putRequest false 0b100 o))

/-- BUS.RD.RSVD.101 (`44_bus_adapter.md` R196). -/
def execBusRdRsvd101 (o : BusOperands) (s : State) : Host.Outcome State Fault Refusal :=
  .next (sysTick (s.putRequest false 0b101 o))

/-- BUS.RD.RSVD.110 (`44_bus_adapter.md` R196). -/
def execBusRdRsvd110 (o : BusOperands) (s : State) : Host.Outcome State Fault Refusal :=
  .next (sysTick (s.putRequest false 0b110 o))

/-- BUS.WR.CLASSIC (`44_bus_adapter.md` R193). -/
def execBusWrClassic (o : BusOperands) (s : State) : Host.Outcome State Fault Refusal :=
  .next (sysTick (s.putRequest true classicCycle o))

/-- BUS.WR.BURST (`44_bus_adapter.md` R195). -/
def execBusWrBurst (o : BusOperands) (s : State) : Host.Outcome State Fault Refusal :=
  .next (sysTick (s.putRequest true linearBurst o))

/-- BUS.WR.END (`44_bus_adapter.md` R193). -/
def execBusWrEnd (o : BusOperands) (s : State) : Host.Outcome State Fault Refusal :=
  .next (sysTick (s.putRequest true endOfBurst o))

/-- BUS.WR.RSVD.001 (`44_bus_adapter.md` R196). -/
def execBusWrRsvd001 (o : BusOperands) (s : State) : Host.Outcome State Fault Refusal :=
  .next (sysTick (s.putRequest true 0b001 o))

/-- BUS.WR.RSVD.011 (`44_bus_adapter.md` R196). -/
def execBusWrRsvd011 (o : BusOperands) (s : State) : Host.Outcome State Fault Refusal :=
  .next (sysTick (s.putRequest true 0b011 o))

/-- BUS.WR.RSVD.100 (`44_bus_adapter.md` R196). -/
def execBusWrRsvd100 (o : BusOperands) (s : State) : Host.Outcome State Fault Refusal :=
  .next (sysTick (s.putRequest true 0b100 o))

/-- BUS.WR.RSVD.101 (`44_bus_adapter.md` R196). -/
def execBusWrRsvd101 (o : BusOperands) (s : State) : Host.Outcome State Fault Refusal :=
  .next (sysTick (s.putRequest true 0b101 o))

/-- BUS.WR.RSVD.110 (`44_bus_adapter.md` R196). -/
def execBusWrRsvd110 (o : BusOperands) (s : State) : Host.Outcome State Fault Refusal :=
  .next (sysTick (s.putRequest true 0b110 o))

end Sys2Proof.Machine
end

