-- ==== Sys2Proof/Machine/CaOps.lean ====
section
/-! DEFINITION. The meanings of the command words (`41_command_encoder.md`). The encoder's output is this command word
because a requester requests at its address and in its direction; it is stored and sent if the FSM takes a request in
this cycle (`42_protocol_fsm.md` R143), and otherwise not (`41_command_encoder.md` R133). -/

namespace Sys2Proof.Machine

/-- CA.RD (`41_command_encoder.md` R131): a read window at word `row ∥ col` is opened if the FSM takes a request in
this cycle. -/
def execCaRd (row : BitVec 19) (col : BitVec 2) (s : State) : Host.Outcome State Fault Refusal :=
  .next (sysTick (s.putCommand false row col))

/-- CA.WR (`41_command_encoder.md` R132): a write window at word `row ∥ col` is opened if the FSM takes a request in
this cycle. -/
def execCaWr (row : BitVec 19) (col : BitVec 2) (s : State) : Host.Outcome State Fault Refusal :=
  .next (sysTick (s.putCommand true row col))

end Sys2Proof.Machine
end

