-- ==== Sys2Proof/Machine/CdcOps.lean ====
section
/-! DEFINITION. The meanings of one cycle of one side of a queue (`46_cdc_queue.md`). The code's half that the
environment drives is on the side's lines in this cycle; the queue's own half (`sink.ready`, `source.valid`) is what
its rules make it (`46_cdc_queue.md` R263, R264). Log entry 1. -/

namespace Sys2Proof.Machine

/-- CDCW.RESET (`46_cdc_queue.md` R266). -/
def execCdcwReset (q : Nat) (valid _ready : Bool) (data : Nat) (s : State) : Host.Outcome State Fault Refusal :=
  queueWriteStep q true valid data s

/-- CDCW.PUSH (`46_cdc_queue.md` R265): the entry and the pointer are written if `sink.ready` is 1; the same lines on
a full queue are the stall. -/
def execCdcwPush (q : Nat) (data : Nat) (s : State) : Host.Outcome State Fault Refusal :=
  queueWriteStep q false true data s

/-- CDCW.STALL (`46_cdc_queue.md` R265): a producer offers and `sink.ready` is 0: nothing is written; the same lines
on a queue with room are the push. -/
def execCdcwStall (q : Nat) (data : Nat) (s : State) : Host.Outcome State Fault Refusal :=
  queueWriteStep q false true data s

/-- CDCW.IDLE (`46_cdc_queue.md` R265): the producer offers nothing: pointer and storage stay. -/
def execCdcwIdle (q : Nat) (_ready : Bool) (data : Nat) (s : State) : Host.Outcome State Fault Refusal :=
  queueWriteStep q false false data s

/-- CDCR.RESET (`46_cdc_queue.md` R267). -/
def execCdcrReset (q : Nat) (_valid ready : Bool) (s : State) : Host.Outcome State Fault Refusal :=
  queueReadStep q true ready s

/-- CDCR.POP (`46_cdc_queue.md` R270): the consumer is ready: the head entry is taken if `source.valid` is 1. -/
def execCdcrPop (q : Nat) (s : State) : Host.Outcome State Fault Refusal :=
  queueReadStep q false true s

/-- CDCR.WAIT (`46_cdc_queue.md` R270): the consumer is not ready: the read pointer stays. -/
def execCdcrWait (q : Nat) (s : State) : Host.Outcome State Fault Refusal :=
  queueReadStep q false false s

/-- CDCR.EMPTY (`46_cdc_queue.md` R270): where `source.valid` is 0 the read pointer stays, whatever the consumer's
`ready`. -/
def execCdcrEmpty (q : Nat) (ready : Bool) (s : State) : Host.Outcome State Fault Refusal :=
  queueReadStep q false ready s

end Sys2Proof.Machine
end

