-- ==== Sys2Proof/Machine/CsrOps.lean ====
section
/-! DEFINITION. The meanings of the register accesses (`45_dma_engines.md` section 2). The control plane makes the
access in this cycle; the tick carries out its effect. -/

namespace Sys2Proof.Machine

/-- CSR.WR.START_ADDRESS (`45_dma_engines.md` R212). -/
def execCsrWrStartAddress (e : EngineId) (v : Word) (s : State) : Host.Outcome State Fault Refusal :=
  .next (sysTick (s.putCsr e ⟨true, 0, v⟩))

/-- CSR.WR.TRANSFER_SIZE (`45_dma_engines.md` R213). -/
def execCsrWrTransferSize (e : EngineId) (v : Word) (s : State) : Host.Outcome State Fault Refusal :=
  .next (sysTick (s.putCsr e ⟨true, 1, v⟩))

/-- CSR.WR.BURST_SIZE (`45_dma_engines.md` R214). -/
def execCsrWrBurstSize (e : EngineId) (v : Word) (s : State) : Host.Outcome State Fault Refusal :=
  .next (sysTick (s.putCsr e ⟨true, 2, v⟩))

/-- CSR.WR.DONE (`45_dma_engines.md` R215): read-only: the tick's register writes leave every register alone. -/
def execCsrWrDone (e : EngineId) (v : Word) (s : State) : Host.Outcome State Fault Refusal :=
  .next (sysTick (s.putCsr e ⟨true, 3, v⟩))

/-- CSR.WR.ENABLE (`45_dma_engines.md` R216): `enable_pulse` in this cycle; the data is ignored. -/
def execCsrWrEnable (e : EngineId) (v : Word) (s : State) : Host.Outcome State Fault Refusal :=
  .next (sysTick (s.putCsr e ⟨true, 4, v⟩))

/-- CSR.WR.RESET (`45_dma_engines.md` R217): `reset_pulse` in this cycle; the data is ignored. -/
def execCsrWrReset (e : EngineId) (v : Word) (s : State) : Host.Outcome State Fault Refusal :=
  .next (sysTick (s.putCsr e ⟨true, 5, v⟩))

/-- CSR.WR.UNDEF (`45_dma_engines.md` R219): ignored. -/
def execCsrWrUndef (e : EngineId) (idx : BitVec 3) (v : Word) (s : State) : Host.Outcome State Fault Refusal :=
  .next (sysTick (s.putCsr e ⟨true, idx, v⟩))

/-- CSR.RD.START_ADDRESS (`45_dma_engines.md` R218). -/
def execCsrRdStartAddress (e : EngineId) (s : State) : Host.Outcome State Fault Refusal :=
  .next (sysTick (s.putCsr e ⟨false, 0, 0⟩))

/-- CSR.RD.TRANSFER_SIZE (`45_dma_engines.md` R218). -/
def execCsrRdTransferSize (e : EngineId) (s : State) : Host.Outcome State Fault Refusal :=
  .next (sysTick (s.putCsr e ⟨false, 1, 0⟩))

/-- CSR.RD.BURST_SIZE (`45_dma_engines.md` R218). -/
def execCsrRdBurstSize (e : EngineId) (s : State) : Host.Outcome State Fault Refusal :=
  .next (sysTick (s.putCsr e ⟨false, 2, 0⟩))

/-- CSR.RD.DONE (`45_dma_engines.md` R218). -/
def execCsrRdDone (e : EngineId) (s : State) : Host.Outcome State Fault Refusal :=
  .next (sysTick (s.putCsr e ⟨false, 3, 0⟩))

/-- CSR.RD.ENABLE (`45_dma_engines.md` R218): returns 0, no effect. -/
def execCsrRdEnable (e : EngineId) (s : State) : Host.Outcome State Fault Refusal :=
  .next (sysTick (s.putCsr e ⟨false, 4, 0⟩))

/-- CSR.RD.RESET (`45_dma_engines.md` R218): returns 0, no effect. -/
def execCsrRdReset (e : EngineId) (s : State) : Host.Outcome State Fault Refusal :=
  .next (sysTick (s.putCsr e ⟨false, 5, 0⟩))

/-- CSR.RD.UNDEF (`45_dma_engines.md` R219): returns 0. -/
def execCsrRdUndef (e : EngineId) (idx : BitVec 3) (s : State) : Host.Outcome State Fault Refusal :=
  .next (sysTick (s.putCsr e ⟨false, idx, 0⟩))

end Sys2Proof.Machine
end

