-- ==== Sys2Proof/Machine/DlyOps.lean ====
section
/-! DEFINITION. The meanings of the delay control (`40_phy_shift.md` section 4). The control vector is on the `DLY`
lines in this cycle. -/

namespace Sys2Proof.Machine

/-- DLY.LOAD (`40_phy_shift.md` R118). -/
def execDlyLoad (move dir : Bool) (s : State) : Host.Outcome State Fault Refusal :=
  .next (sysTick (s.putDly true move dir))

/-- DLY.INC (`40_phy_shift.md` R118). -/
def execDlyInc (s : State) : Host.Outcome State Fault Refusal :=
  .next (sysTick (s.putDly false true false))

/-- DLY.DEC (`40_phy_shift.md` R118). -/
def execDlyDec (s : State) : Host.Outcome State Fault Refusal :=
  .next (sysTick (s.putDly false true true))

/-- DLY.HOLD (`40_phy_shift.md` R118). -/
def execDlyHold (dir : Bool) (s : State) : Host.Outcome State Fault Refusal :=
  .next (sysTick (s.putDly false false dir))

end Sys2Proof.Machine
end

