-- ==== Sys2Proof/Machine/EngOps.lean ====
section
/-! DEFINITION. The meanings of one tick of an engine FSM in a given state (`45_dma_engines.md` section 4). The
engine's state register holds the code; the tick carries out that state's rules. -/

namespace Sys2Proof.Machine

/-- ENG.IDLE (`45_dma_engines.md` R230, R231). -/
def execEngIdle (e : EngineId) (s : State) : Host.Outcome State Fault Refusal :=
  .next (sysTick (s.setEst e .idle))

/-- ENG.ACTIVE (`45_dma_engines.md` R232, R234, R235). -/
def execEngActive (e : EngineId) (s : State) : Host.Outcome State Fault Refusal :=
  .next (sysTick (s.setEst e .active))

end Sys2Proof.Machine
end

