-- ==== Sys2Proof/Machine/EvtOps.lean ====
section
/-! DEFINITION. The meanings of the events (`30_encoding.md` R103). The event takes place in this cycle. -/

namespace Sys2Proof.Machine

/-- PHY.SHIFTOUT (`40_phy_shift.md` R112). -/
def execPhyShiftout (w : Word) (m : BitVec 4) (s : State) : Host.Outcome State Fault Refusal :=
  .next (sysTickCalling (some ⟨w, m⟩) s)

/-- PHY.IDLE (`40_phy_shift.md` R113). -/
def execPhyIdle (s : State) : Host.Outcome State Fault Refusal :=
  .next (sysTickCalling none s)

/-- PHY.SAMPLEIN (`40_phy_shift.md` R115): the tick takes the samples of its cycle, as it does in every state. -/
def execPhySamplein (_p : Unit) (s : State) : Host.Outcome State Fault Refusal :=
  .next (sysTick s)

/-- DMA.START.LOCAL (`45_dma_engines.md` R220): `enable_pulse` = 1; it is the start event of an engine with `EXT_SYNC`
= 0 and only arms one with `EXT_SYNC` = 1. -/
def execDmaStartLocal (e : EngineId) (s : State) : Host.Outcome State Fault Refusal :=
  .next (sysTick (s.putCsr e ⟨true, 4, 0⟩))

/-- DMA.START.EXT (`45_dma_engines.md` R221): `start` = 1; honoured with `EXT_SYNC` = 1 and `enabled` latched, ignored
with `EXT_SYNC` = 0. -/
def execDmaStartExt (e : EngineId) (s : State) : Host.Outcome State Fault Refusal :=
  .next (sysTick (s.putStart e))

/-- PULSE.SEND (`46_cdc_queue.md` R272). -/
def execPulseSend (x : Nat) (pulse : Bool) (s : State) : Host.Outcome State Fault Refusal :=
  crossingSourceStep x pulse s

/-- PULSE.SYNC (`46_cdc_queue.md` R273, R274). -/
def execPulseSync (x : Nat) (s : State) : Host.Outcome State Fault Refusal :=
  crossingDestStep x s

/-- SYS.RESET (`70_reset_and_hazards.md` R320): every `sys` register takes its reset value. -/
def execSysReset (s : State) : Host.Outcome State Fault Refusal :=
  .next (sysTick s.putReset)

end Sys2Proof.Machine
end

