-- ==== Sys2Proof/Machine/FsmOps.lean ====
section
/-! DEFINITION. The meanings of one tick of the protocol FSM in a given state (`42_protocol_fsm.md`). The state
register holds the code; the tick carries out that state's rules. -/

namespace Sys2Proof.Machine

/-- FSM.IDLE (`42_protocol_fsm.md` R142, R143). -/
def execFsmIdle (s : State) : Host.Outcome State Fault Refusal :=
  .next (sysTick (s.setFsmState .idle))

/-- FSM.CMD (`42_protocol_fsm.md` R144, R145). -/
def execFsmCmd (s : State) : Host.Outcome State Fault Refusal :=
  .next (sysTick (s.setFsmState .cmd))

/-- FSM.RWDS_WAIT (`42_protocol_fsm.md` R146, R147). -/
def execFsmRwdsWait (s : State) : Host.Outcome State Fault Refusal :=
  .next (sysTick (s.setFsmState .rwdsWait))

/-- FSM.READ_START (`42_protocol_fsm.md` R148, R149). -/
def execFsmReadStart (s : State) : Host.Outcome State Fault Refusal :=
  .next (sysTick (s.setFsmState .readStart))

/-- FSM.READ_ACK (`42_protocol_fsm.md` R150). -/
def execFsmReadAck (s : State) : Host.Outcome State Fault Refusal :=
  .next (sysTick (s.setFsmState .readAck))

/-- FSM.READ_BURST (`42_protocol_fsm.md` R151, R152). -/
def execFsmReadBurst (s : State) : Host.Outcome State Fault Refusal :=
  .next (sysTick (s.setFsmState .readBurst))

/-- FSM.LATENCY_WRITE (`42_protocol_fsm.md` R153, R154). -/
def execFsmLatencyWrite (s : State) : Host.Outcome State Fault Refusal :=
  .next (sysTick (s.setFsmState .latencyWrite))

/-- FSM.W_PREP (`42_protocol_fsm.md` R155). -/
def execFsmWPrep (s : State) : Host.Outcome State Fault Refusal :=
  .next (sysTick (s.setFsmState .wPrep))

/-- FSM.WRITE_BURST (`42_protocol_fsm.md` R156, R157). -/
def execFsmWriteBurst (s : State) : Host.Outcome State Fault Refusal :=
  .next (sysTick (s.setFsmState .writeBurst))

/-- FSM.WRITE_FINISH (`42_protocol_fsm.md` R158). -/
def execFsmWriteFinish (s : State) : Host.Outcome State Fault Refusal :=
  .next (sysTick (s.setFsmState .writeFinish))

/-- FSM.TIMEOUT (`42_protocol_fsm.md` R160). -/
def execFsmTimeout (s : State) : Host.Outcome State Fault Refusal :=
  .next (sysTick (s.setFsmState .timeout))

/-- FSM.CLEANUP (`42_protocol_fsm.md` R159). -/
def execFsmCleanup (s : State) : Host.Outcome State Fault Refusal :=
  .next (sysTick (s.setFsmState .cleanup))

end Sys2Proof.Machine
end

