-- ==== Sys2Proof/Machine/StrmOps.lean ====
section
/-! DEFINITION. The meanings of the stream codes (`45_dma_engines.md` sections 5, 6). The code's half that the partner
drives is on the port in this cycle; the engine's own half is what its rules make it (`45_dma_engines.md` R241, R242).
Log entry 1. -/

namespace Sys2Proof.Machine

/-- STRM.XFER (`30_encoding.md` R89): both levels 1: the word moves. -/
def execStrmXfer (e : EngineId) (data : Word) (s : State) : Host.Outcome State Fault Refusal :=
  .next (sysTick (s.putPartner e true data))

/-- STRM.UNDERFLOW (`45_dma_engines.md` R244): valid without ready: diagnostic only. -/
def execStrmUnderflow (e : EngineId) (data : Word) (s : State) : Host.Outcome State Fault Refusal :=
  .next (sysTick (s.putPartner e (e == .reader) data))

/-- STRM.OVERFLOW (`45_dma_engines.md` R243): ready without valid: diagnostic only. -/
def execStrmOverflow (e : EngineId) (data : Word) (s : State) : Host.Outcome State Fault Refusal :=
  .next (sysTick (s.putPartner e (e == .writer) data))

/-- STRM.IDLE (`30_encoding.md` R89): both levels 0. -/
def execStrmIdle (e : EngineId) (data : Word) (s : State) : Host.Outcome State Fault Refusal :=
  .next (sysTick (s.putPartner e false data))

end Sys2Proof.Machine
end

