-- ==== Sys2Proof/Machine/Dispatch.lean ====
section
/-! DEFINITION. The dispatch: one arm per operation, each one direct call of its meaning. -/

namespace Sys2Proof.Machine

def exec (i : Instr) (s : State) : Host.Outcome State Fault Refusal :=
  match i with
  | .caRd row col => Sys2Proof.Machine.execCaRd row col s
  | .caWr row col => Sys2Proof.Machine.execCaWr row col s
  | .busNop we cti => Sys2Proof.Machine.execBusNop we cti s
  | .busRdClassic o => Sys2Proof.Machine.execBusRdClassic o s
  | .busRdBurst o => Sys2Proof.Machine.execBusRdBurst o s
  | .busRdEnd o => Sys2Proof.Machine.execBusRdEnd o s
  | .busRdRsvd001 o => Sys2Proof.Machine.execBusRdRsvd001 o s
  | .busRdRsvd011 o => Sys2Proof.Machine.execBusRdRsvd011 o s
  | .busRdRsvd100 o => Sys2Proof.Machine.execBusRdRsvd100 o s
  | .busRdRsvd101 o => Sys2Proof.Machine.execBusRdRsvd101 o s
  | .busRdRsvd110 o => Sys2Proof.Machine.execBusRdRsvd110 o s
  | .busWrClassic o => Sys2Proof.Machine.execBusWrClassic o s
  | .busWrBurst o => Sys2Proof.Machine.execBusWrBurst o s
  | .busWrEnd o => Sys2Proof.Machine.execBusWrEnd o s
  | .busWrRsvd001 o => Sys2Proof.Machine.execBusWrRsvd001 o s
  | .busWrRsvd011 o => Sys2Proof.Machine.execBusWrRsvd011 o s
  | .busWrRsvd100 o => Sys2Proof.Machine.execBusWrRsvd100 o s
  | .busWrRsvd101 o => Sys2Proof.Machine.execBusWrRsvd101 o s
  | .busWrRsvd110 o => Sys2Proof.Machine.execBusWrRsvd110 o s
  | .csrWrStartAddress e v => Sys2Proof.Machine.execCsrWrStartAddress e v s
  | .csrWrTransferSize e v => Sys2Proof.Machine.execCsrWrTransferSize e v s
  | .csrWrBurstSize e v => Sys2Proof.Machine.execCsrWrBurstSize e v s
  | .csrWrDone e v => Sys2Proof.Machine.execCsrWrDone e v s
  | .csrWrEnable e v => Sys2Proof.Machine.execCsrWrEnable e v s
  | .csrWrReset e v => Sys2Proof.Machine.execCsrWrReset e v s
  | .csrWrUndef e idx v => Sys2Proof.Machine.execCsrWrUndef e idx v s
  | .csrRdStartAddress e => Sys2Proof.Machine.execCsrRdStartAddress e s
  | .csrRdTransferSize e => Sys2Proof.Machine.execCsrRdTransferSize e s
  | .csrRdBurstSize e => Sys2Proof.Machine.execCsrRdBurstSize e s
  | .csrRdDone e => Sys2Proof.Machine.execCsrRdDone e s
  | .csrRdEnable e => Sys2Proof.Machine.execCsrRdEnable e s
  | .csrRdReset e => Sys2Proof.Machine.execCsrRdReset e s
  | .csrRdUndef e idx => Sys2Proof.Machine.execCsrRdUndef e idx s
  | .dlyLoad move dir => Sys2Proof.Machine.execDlyLoad move dir s
  | .dlyInc => Sys2Proof.Machine.execDlyInc s
  | .dlyDec => Sys2Proof.Machine.execDlyDec s
  | .dlyHold dir => Sys2Proof.Machine.execDlyHold dir s
  | .fsmIdle => Sys2Proof.Machine.execFsmIdle s
  | .fsmCmd => Sys2Proof.Machine.execFsmCmd s
  | .fsmRwdsWait => Sys2Proof.Machine.execFsmRwdsWait s
  | .fsmReadStart => Sys2Proof.Machine.execFsmReadStart s
  | .fsmReadAck => Sys2Proof.Machine.execFsmReadAck s
  | .fsmReadBurst => Sys2Proof.Machine.execFsmReadBurst s
  | .fsmLatencyWrite => Sys2Proof.Machine.execFsmLatencyWrite s
  | .fsmWPrep => Sys2Proof.Machine.execFsmWPrep s
  | .fsmWriteBurst => Sys2Proof.Machine.execFsmWriteBurst s
  | .fsmWriteFinish => Sys2Proof.Machine.execFsmWriteFinish s
  | .fsmTimeout => Sys2Proof.Machine.execFsmTimeout s
  | .fsmCleanup => Sys2Proof.Machine.execFsmCleanup s
  | .engIdle e => Sys2Proof.Machine.execEngIdle e s
  | .engActive e => Sys2Proof.Machine.execEngActive e s
  | .strmXfer e data => Sys2Proof.Machine.execStrmXfer e data s
  | .strmUnderflow e data => Sys2Proof.Machine.execStrmUnderflow e data s
  | .strmOverflow e data => Sys2Proof.Machine.execStrmOverflow e data s
  | .strmIdle e data => Sys2Proof.Machine.execStrmIdle e data s
  | .cdcwReset q valid ready data => Sys2Proof.Machine.execCdcwReset q valid ready data s
  | .cdcwPush q data => Sys2Proof.Machine.execCdcwPush q data s
  | .cdcwStall q data => Sys2Proof.Machine.execCdcwStall q data s
  | .cdcwIdle q ready data => Sys2Proof.Machine.execCdcwIdle q ready data s
  | .cdcrReset q valid ready => Sys2Proof.Machine.execCdcrReset q valid ready s
  | .cdcrPop q => Sys2Proof.Machine.execCdcrPop q s
  | .cdcrWait q => Sys2Proof.Machine.execCdcrWait q s
  | .cdcrEmpty q ready => Sys2Proof.Machine.execCdcrEmpty q ready s
  | .phyShiftout w m => Sys2Proof.Machine.execPhyShiftout w m s
  | .phyIdle => Sys2Proof.Machine.execPhyIdle s
  | .phySamplein p => Sys2Proof.Machine.execPhySamplein p s
  | .dmaStartLocal e => Sys2Proof.Machine.execDmaStartLocal e s
  | .dmaStartExt e => Sys2Proof.Machine.execDmaStartExt e s
  | .pulseSend x pulse => Sys2Proof.Machine.execPulseSend x pulse s
  | .pulseSync x => Sys2Proof.Machine.execPulseSync x s
  | .sysReset => Sys2Proof.Machine.execSysReset s

end Sys2Proof.Machine
end

