-- ==== Sys2Proof/Machine/Fetch.lean ====
section
/-! DEFINITION. Where the next operation comes from: the stimulus script, and behind it the FSM's own state register. -/

namespace Sys2Proof.Machine

/-- The operation word the protocol FSM's state register is: it "alone selects which rule the next `sys` tick executes"
(`10_state.md` R10). -/
def stateWord (s : State) : OpWord :=
  ⟨.fsm, fsmCode s.fsm.state, .none⟩

/-- The next operation word: the script's, or the FSM's state code where the script gives none. -/
def fetch (s : State) : OpWord :=
  match s.script with
  | [] => stateWord s
  | c :: _ =>
    match c.op with
    | some w => w
    | none => stateWord s

/-- The state in which the fetched operation runs: the lines of the cycle are the script's event's, and the event is
used up; without a script the lines stand as they are. -/
def nextCycle (s : State) : State :=
  match s.script with
  | [] => s
  | c :: rest => { s with inp := c.inp, script := rest }

/-- The protocol state whose rule an operation is, if it is one. -/
def fsmStateOf (i : Instr) : Option FsmState :=
  match i with
  | .fsmIdle => some .idle
  | .fsmCmd => some .cmd
  | .fsmRwdsWait => some .rwdsWait
  | .fsmReadStart => some .readStart
  | .fsmReadAck => some .readAck
  | .fsmReadBurst => some .readBurst
  | .fsmLatencyWrite => some .latencyWrite
  | .fsmWPrep => some .wPrep
  | .fsmWriteBurst => some .writeBurst
  | .fsmWriteFinish => some .writeFinish
  | .fsmTimeout => some .timeout
  | .fsmCleanup => some .cleanup
  | _ => none

/-- The engine state whose rule an operation is, if it is one. -/
def engStateOf (i : Instr) : Option (EngineId × EngState) :=
  match i with
  | .engIdle e => some (e, .idle)
  | .engActive e => some (e, .active)
  | _ => none

/-- The operation can take place in this cycle: a state code is the one its register holds (`10_state.md` R10, R25);
every other operation is the environment's choice. -/
def selects (i : Instr) (s : State) : Bool :=
  match fsmStateOf i, engStateOf i with
  | some x, _ => s.fsm.state == x
  | none, some (e, x) => (s.engine e).est == x
  | none, none => true

/-- The build's parameters are in range (`93_implementation_defined.md` U12; `43_burst_timeout_supervisor.md` R184,
`46_cdc_queue.md` R260, R274). -/
def Params.legal (p : Sys2Proof.Params) : Bool :=
  decide (1 ≤ p.writeLatency) && decide (p.writeLatency ≤ 256) && decide (Config.syncStages ≤ p.resetStretch)

/-- A queue's parameters are in range: depth a power of two of at least 2, at least one payload bit. -/
def QueueCfg.legal (c : QueueCfg) : Bool :=
  decide (1 ≤ c.depthLog) && decide (1 ≤ c.width)

/-- Every parameter of the build is in range. -/
def State.legalBuild (s : State) : Bool :=
  Params.legal s.params && s.queues.all fun q => QueueCfg.legal q.cfg

/-- The state in which the next step fetches this word: a state code goes into the state register, where it is fetched
from; any other word is put in front of the script, with the lines as they are. -/
def State.withFetch (s : State) (w : OpWord) : State :=
  match w.port with
  | .fsm =>
    match fsmStateOfCode w.code with
    | some x => { s.setFsmState x with script := ⟨s.inp, some w⟩ :: s.script }
    | none => { s with script := ⟨s.inp, some w⟩ :: s.script }
  | .eng e =>
    { s.setEst e (if w.code = 0 then .idle else .active) with script := ⟨s.inp, some w⟩ :: s.script }
  | _ => { s with script := ⟨s.inp, some w⟩ :: s.script }

end Sys2Proof.Machine
end

