-- ==== Sys2Proof/Machine/Step.lean ====
section
/-! DEFINITION. One step of the machine, and how a test places an operation for the next step. -/

namespace Sys2Proof.Machine

/-- One step: fetch an operation word, decode it, and let `exec` run it on the lines of the cycle. A build outside its
parameters' range is refused (`93_implementation_defined.md` U12), and so is a state code that the state register does not
hold (`10_state.md` R10). -/
def step (s : State) : Host.Outcome State Fault Refusal :=
  if s.legalBuild then
    match decode (fetch s) with
    | .error e => .refused (.undecodable e)
    | .ok i => if selects i (nextCycle s) then exec i (nextCycle s) else .refused .notTheStateCode
  else .refused .illegalBuild

/-- The state in which the next step fetches the operation with the bits `w` of spec/opcode_table.json. -/
def State.withFetchWord (s : State) (nbits w : Nat) : State :=
  s.withFetch (tableWord nbits w)

end Sys2Proof.Machine
end

