-- ==== Sys2Proof/Safety.lean ====
section
/-! DEFINITION. What the statements speak about: the invariant of the machine, the shapes of operations, runs of cycles and
of queue and crossing ticks, and the obligations the environment has (`70_reset_and_hazards.md` section 3). -/

namespace Sys2Proof.Machine

/-! ### The invariant -/

/-- The pin-control registers by state (`42_protocol_fsm.md` R162). The two rows of `CLEANUP` are told apart by the
window's direction: a timeout can only end a read window (R160). -/
def pinTable (x : FsmState) (read : Bool) : Bool × Bool × Bool × Bool :=
  match x with
  | .idle => (false, false, false, false)
  | .cmd => (true, true, true, false)
  | .rwdsWait => (true, true, false, false)
  | .readStart => (true, true, false, false)
  | .readAck => (true, true, false, false)
  | .readBurst => (true, true, false, false)
  | .latencyWrite => (true, true, false, false)
  | .wPrep => (true, true, true, true)
  | .writeBurst => (true, true, true, true)
  | .writeFinish => (true, true, true, true)
  | .timeout => (true, true, false, false)
  | .cleanup => (true, read, !read, !read)

/-- The largest value of `phase_cnt` in a state (`10_state.md` R13). -/
def phaseBound (p : Params) (x : FsmState) : Nat :=
  match x with
  | .cmd => Config.cmdCycles - 1
  | .rwdsWait => Config.timeoutCycles - 1
  | .readStart => Config.timeoutCycles - 1
  | .latencyWrite => p.writeLatency - 1
  | .idle => 0
  | .readAck => 0
  | .readBurst => 0
  | .wPrep => 0
  | .writeBurst => 0
  | .writeFinish => 0
  | .timeout => 0
  | .cleanup => 0

/-- The largest value of `burst_cnt` in a state (`43_burst_timeout_supervisor.md` R180, R181): no word before the first
acknowledgment, below the ceiling in an acknowledging state. -/
def burstBound (x : FsmState) : Nat :=
  match x with
  | .idle => 0
  | .cmd => 0
  | .rwdsWait => 0
  | .readStart => 0
  | .latencyWrite => 0
  | .timeout => 0
  | .readAck => Config.burstMax - 1
  | .wPrep => Config.burstMax - 1
  | .readBurst => Config.burstMax
  | .writeBurst => Config.burstMax
  | .writeFinish => Config.burstMax
  | .cleanup => Config.burstMax

/-- The window direction a state belongs to, where it belongs to one only: `some true` for the read path. -/
def pathOf (x : FsmState) : Option Bool :=
  match x with
  | .idle => none
  | .cmd => none
  | .cleanup => none
  | .rwdsWait => some true
  | .readStart => some true
  | .readAck => some true
  | .readBurst => some true
  | .timeout => some true
  | .latencyWrite => some false
  | .wPrep => some false
  | .writeBurst => some false
  | .writeFinish => some false

/-- The reserved bits of a command word: bit 46, 44:35, 15:3 and 0 clear, bit 45 set (`30_encoding.md` R81, R83). -/
def reservedBitsOk (ca : CommandWord) : Prop :=
  ca &&& 0x7FF80000FFF9#48 = 0x200000000000#48

/-- The invariant of the protocol controller. -/
structure FsmInv (p : Params) (f : Fsm) : Prop where
  pins : (f.cs, f.clkEn, f.dqOe, f.rwdsOe) = pinTable f.state (isReadCommand f.ca)
  phase : f.phaseCnt.toNat ≤ phaseBound p f.state
  burst : f.burstCnt.toNat ≤ burstBound f.state
  hint : burstBound f.state = 0 → f.contHint = false
  command : f.state ≠ .idle → reservedBitsOk f.ca
  path : ∀ read, pathOf f.state = some read → isReadCommand f.ca = read

/-- The invariant of the PHY: the tap's range (`40_phy_shift.md` R118), the idle word in a cycle without a queued word
(R113), and the half-cycle register's place in the sampled word (R115). -/
structure PhyInv (p : Params) (x : Phy) : Prop where
  tap : x.delayTap ≤ p.delayTapMax
  idleWord : x.txValid = false → x.txWord = 0 ∧ x.txMask = 0b1111
  half : x.rxHalf0 = x.rxWord.extractLsb' 16 16 ++ x.rxStrobe.extractLsb' 2 2

/-- The invariant of an engine: an active engine is busy (`45_dma_engines.md` R250). -/
def EngineInv (g : Engine) : Prop :=
  g.est = .active → g.busy = true

/-- The invariant of a queue: pointers and stages in their range (`10_state.md` R28, R29), entries numbered below the
depth, listed in canonical form, with payloads of the queue's width (R27). -/
structure QueueInv (q : Queue) : Prop where
  wptr : q.wptr < pointerModulus q
  rptr : q.rptr < pointerModulus q
  rptrW1 : q.rptrW1 < pointerModulus q
  rptrW2 : q.rptrW2 < pointerModulus q
  wptrR1 : q.wptrR1 < pointerModulus q
  wptrR2 : q.wptrR2 < pointerModulus q
  form : cellsWf q.mem = true
  entries : ∀ c ∈ q.mem, c.1 < queueDepth q ∧ c.2 < 2 ^ q.cfg.width

/-- The invariant of a crossing: the stretcher counts down from `RESET_STRETCH` (`46_cdc_queue.md` R274). -/
def CrossingInv (p : Params) (c : Crossing) : Prop :=
  c.stretchCnt ≤ p.resetStretch

/-- The invariant of the device's storage: canonical form, byte addresses of 2^22 half-words (`20_memory.md` R52, R63). -/
structure MemoryInv (m : Memory) : Prop where
  form : Memory.wf m = true
  range : ∀ c ∈ m, c.1 < 2 ^ 23

/-- The invariant of the machine. -/
structure State.Inv (s : State) : Prop where
  build : s.legalBuild = true
  fsm : FsmInv s.params s.fsm
  phy : PhyInv s.params s.phy
  writer : EngineInv s.writer
  reader : EngineInv s.reader
  queues : ∀ q ∈ s.queues, QueueInv q
  crossings : ∀ c ∈ s.crossings, CrossingInv s.params c
  devMem : MemoryInv s.devMem

/-! ### Shapes of operations -/

/-- The operations of the `sys` domain, whatever the platform's wiring: all but those of a queue's or a crossing's
side. -/
def isSysOp (i : Instr) : Bool :=
  match i with
  | .cdcwReset _ _ _ _ => false
  | .cdcwPush _ _ => false
  | .cdcwStall _ _ => false
  | .cdcwIdle _ _ _ => false
  | .cdcrReset _ _ _ => false
  | .cdcrPop _ => false
  | .cdcrWait _ => false
  | .cdcrEmpty _ _ => false
  | .pulseSend _ _ => false
  | .pulseSync _ => false
  | _ => true

/-- The request a bus operation shows: write enable, cycle type, operands (`30_encoding.md` R85 to R87). -/
def requestOf (i : Instr) : Option (Bool × BitVec 3 × BusOperands) :=
  match i with
  | .busRdClassic o => some (false, 0b000, o)
  | .busRdBurst o => some (false, 0b010, o)
  | .busRdEnd o => some (false, 0b111, o)
  | .busRdRsvd001 o => some (false, 0b001, o)
  | .busRdRsvd011 o => some (false, 0b011, o)
  | .busRdRsvd100 o => some (false, 0b100, o)
  | .busRdRsvd101 o => some (false, 0b101, o)
  | .busRdRsvd110 o => some (false, 0b110, o)
  | .busWrClassic o => some (true, 0b000, o)
  | .busWrBurst o => some (true, 0b010, o)
  | .busWrEnd o => some (true, 0b111, o)
  | .busWrRsvd001 o => some (true, 0b001, o)
  | .busWrRsvd011 o => some (true, 0b011, o)
  | .busWrRsvd100 o => some (true, 0b100, o)
  | .busWrRsvd101 o => some (true, 0b101, o)
  | .busWrRsvd110 o => some (true, 0b110, o)
  | _ => none

/-- The operation is of format `BUS`. -/
def isBusOp (i : Instr) : Bool :=
  match i with
  | .busNop _ _ => true
  | _ => (requestOf i).isSome

/-- The engine that a write of one of the three configuration registers addresses. -/
def configures (i : Instr) : Option EngineId :=
  match i with
  | .csrWrStartAddress e _ => some e
  | .csrWrTransferSize e _ => some e
  | .csrWrBurstSize e _ => some e
  | _ => none

/-- The engine that a register write of `reset` addresses. -/
def resets (i : Instr) : Option EngineId :=
  match i with
  | .csrWrReset e _ => some e
  | _ => none

/-- The three configuration registers of an engine (`10_state.md` R23). -/
def configOf (g : Engine) : Word × Word × Word :=
  (g.startAddress, g.transferSize, g.burstSize)

/-- The state with no control-plane access to engine `e` in this cycle. -/
def State.withoutCsr (s : State) (e : EngineId) : State :=
  s.setEngIn e { s.inp.eng e with csr := none }

/-- Everything a `sys` tick writes but engine `e`, the lines and the outputs: two states agree on it. -/
structure AgreeBut (e : EngineId) (s t : State) : Prop where
  params : s.params = t.params
  fsm : s.fsm = t.fsm
  phy : s.phy = t.phy
  other : ∀ d, d ≠ e → s.engine d = t.engine d
  queues : s.queues = t.queues
  crossings : s.crossings = t.crossings
  devMem : s.devMem = t.devMem
  free : s.free = t.free
  tapMoved : s.tapMoved = t.tapMoved
  script : s.script = t.script

/-- Two states agree on everything but the lines and the outputs. -/
structure AgreeRegisters (s t : State) : Prop where
  params : s.params = t.params
  fsm : s.fsm = t.fsm
  phy : s.phy = t.phy
  writer : s.writer = t.writer
  reader : s.reader = t.reader
  queues : s.queues = t.queues
  crossings : s.crossings = t.crossings
  devMem : s.devMem = t.devMem
  free : s.free = t.free
  tapMoved : s.tapMoved = t.tapMoved
  script : s.script = t.script

/-- Two states agree on everything but queues, crossings, the lines and the outputs. -/
structure AgreeCore (s t : State) : Prop where
  params : s.params = t.params
  fsm : s.fsm = t.fsm
  phy : s.phy = t.phy
  writer : s.writer = t.writer
  reader : s.reader = t.reader
  devMem : s.devMem = t.devMem
  free : s.free = t.free
  tapMoved : s.tapMoved = t.tapMoved
  script : s.script = t.script

/-- The frame of an operation of the protocol controller, `t` being the state after a cycle on the lines of `s`: the
engines, queues, crossings, the PHY's inputs and the tap move by their own rules, the build and the script stay. -/
structure RestTicks (s t : State) : Prop where
  params : t.params = s.params
  writer : t.writer = engineAfter s .writer
  reader : t.reader = engineAfter s .reader
  queues : t.queues = queuesSysTick s 0 s.queues
  crossings : t.crossings = crossingsSysTick s 0 s.crossings
  rxWord : t.phy.rxWord = pinsWord (linesNow s)
  rxStrobe : t.phy.rxStrobe = pinsStrobe (linesNow s)
  delayTap : t.phy.delayTap = adjustDelay s.params.delayTapMax s.inp.dly s.phy.delayTap
  tapMoved : t.tapMoved = windowDisturbed s
  script : t.script = s.script

/-- The frame of a tick of foreign domain `d` (`00_scope.md` R5, R6; `46_cdc_queue.md` R261): queues and crossings whose
far ends are in another domain, every register of `sys`, the storage, the outputs, the script, and every line but those
of the domain's own far ends are as before. -/
structure DomainFrame (d : Domain) (s t : State) : Prop where
  core : AgreeCore t s
  out : t.out = s.out
  queues : ∀ m, queueFarIn d s m = false → t.queues[m]? = s.queues[m]?
  crossings : ∀ m, crossingFarIn d s m = false → t.crossings[m]? = s.crossings[m]?
  lines : { t.inp with queues := s.inp.queues, crossings := s.inp.crossings } = s.inp
  sysLines : ∀ m, (queueLines t m).rst = (queueLines s m).rst ∧ (queueLines t m).link = (queueLines s m).link
  farLines : ∀ m, queueFarIn d s m = false → (queueLines t m).far = (queueLines s m).far
  pulseLines : ∀ m, (crossLines t m).pulse = (crossLines s m).pulse ∧ (crossLines t m).farRst = (crossLines s m).farRst

/-- Queue `m`, if its far side is in domain `d`, has made one far-side tick on its own lines of `s`. -/
def QueueMoved (d : Domain) (m : Nat) (s t : State) : Prop :=
  ∀ q, s.queues[m]? = some q → q.cfg.farDomain = d → t.queues[m]? = some (queueFarTick s m q)

/-- Crossing `m`, if its far end is in domain `d`, has made one far-end tick on its own lines of `s`. -/
def CrossingMoved (d : Domain) (m : Nat) (s t : State) : Prop :=
  ∀ c, s.crossings[m]? = some c → c.farDomain = d → t.crossings[m]? = some (crossingFarTick s m c)

/-- The state with the input-delay tap at `tap`. -/
def State.withTap (s : State) (tap : Nat) : State :=
  { s with phy := { s.phy with delayTap := tap } }

/-- The state in whose cycle the arbiter connects the external master: no engine is acknowledged. -/
def State.withExternal (s : State) : State :=
  { s with inp := { s.inp with grant := .external } }

/-- What every tick adds to a rule of the protocol FSM (`42_protocol_fsm.md` R161), written out. -/
def Ticked (s : State) (f : Fsm) : Fsm :=
  { f with strobeLast := s.phy.rxStrobe.getLsbD 0, devRst := false }

/-- The PHY's output registers hold the idle word (`40_phy_shift.md` R113). -/
def IdleWord (x : Phy) : Prop :=
  x.txWord = 0 ∧ x.txMask = 0b1111 ∧ x.txValid = false

/-- The PHY's output registers hold a queued word (`40_phy_shift.md` R112). -/
def QueuedWord (x : Phy) (w : Word) (m : BitVec 4) : Prop :=
  x.txWord = w ∧ x.txMask = m ∧ x.txValid = true

/-! ### Runs -/

/-- The state after `sys` cycles with these input lines, one tick for each. -/
def sysCycles (ls : List Inputs) (s : State) : State :=
  match ls with
  | [] => s
  | l :: rest => sysCycles rest (sysTick { s with inp := l })

/-- Cycle `n` of an endless run from `s`: the state before the tick, with the cycle's lines on it. -/
def cycleAt (l : Nat → Inputs) (s : State) (n : Nat) : State :=
  match n with
  | 0 => { s with inp := l 0 }
  | k + 1 => { sysTick (cycleAt l s k) with inp := l (k + 1) }

/-- The device half-word address at which the window's current word begins (`20_memory.md` R52, R64, R65): twice its bus
word address. -/
def windowHalfword (s : State) : Nat :=
  ((commandHalfword s.fsm.ca).toNat + 2 * s.fsm.burstCnt.toNat) % 2 ^ 22

/-- One event on a queue: a tick of its write side or of its read side, with the side's lines. -/
inductive QueueEvent where
  | write (rst valid : Bool) (data : Nat)
  | read (rst ready : Bool)
  deriving DecidableEq, Repr

/-- The queue after one event. -/
def queueEvent (ev : QueueEvent) (q : Queue) : Queue :=
  match ev with
  | .write rst valid data => queueWriteTick rst valid data q
  | .read rst ready => queueReadTick rst ready q

/-- The queue after events. -/
def queueRun (evs : List QueueEvent) (q : Queue) : Queue :=
  match evs with
  | [] => q
  | ev :: rest => queueRun rest (queueEvent ev q)

/-- The payloads the queue accepted, in order: one where `sink.valid` and `sink.ready` were 1 (`46_cdc_queue.md` R265). -/
def pushesOf (evs : List QueueEvent) (q : Queue) : List Nat :=
  match evs with
  | [] => []
  | .write rst valid data :: rest =>
    if valid && sinkReady rst q then (data % 2 ^ q.cfg.width) :: pushesOf rest (queueEvent (.write rst valid data) q)
    else pushesOf rest (queueEvent (.write rst valid data) q)
  | .read rst ready :: rest => pushesOf rest (queueEvent (.read rst ready) q)

/-- The payloads the consumer took, in order: one where `source.valid` and `source.ready` were 1
(`46_cdc_queue.md` R270). -/
def popsOf (evs : List QueueEvent) (q : Queue) : List Nat :=
  match evs with
  | [] => []
  | .write rst valid data :: rest => popsOf rest (queueEvent (.write rst valid data) q)
  | .read rst ready :: rest =>
    if ready && sourceValid rst q then sourceData q :: popsOf rest (queueEvent (.read rst ready) q)
    else popsOf rest (queueEvent (.read rst ready) q)

/-- An event with the side's reset inactive. -/
def QueueEvent.running (ev : QueueEvent) : Bool :=
  match ev with
  | .write rst _ _ => !rst
  | .read rst _ => !rst

/-- Each side leaves a reset it is in, or stays in it, and none goes back into one: `inW` and `inR` say which side is in
reset before the events. -/
def staysReleased (inW inR : Bool) (evs : List QueueEvent) : Bool :=
  match evs with
  | [] => true
  | .write rst _ _ :: rest => (!rst || inW) && staysReleased (inW && rst) inR rest
  | .read rst _ :: rest => (!rst || inR) && staysReleased inW (inR && rst) rest

/-- The side of an event. -/
def QueueEvent.side (ev : QueueEvent) : QueueSide :=
  match ev with
  | .write _ _ _ => .write
  | .read _ _ => .read

/-- How many of the events are ticks of a side. -/
def ticksOf (side : QueueSide) (evs : List QueueEvent) : Nat :=
  (evs.filter fun ev => ev.side == side).length

/-- The crossing after `n` destination ticks without reset. -/
def destTicks (resetStretch : Nat) (n : Nat) (c : Crossing) : Crossing :=
  match n with
  | 0 => c
  | k + 1 => destTicks resetStretch k (crossingDestTick false resetStretch c)

/-! ### What the environment must respect (`70_reset_and_hazards.md` section 3) -/

/-- R330: a requester holds its lines from the cycle it raises a request until a cycle with `ack` = 1: the adapter finds
in the next cycle, whose lines are `next`, what it finds in this one. An engine's lines follow its registers after the
tick, so that a `reset` write, or a write of its live configuration, drops or moves its request. DESIGN CHOICE, log
entry 29: no obligation runs over a cycle with `rst` = 1, of which R330 does not speak. -/
def RequestHeld (s : State) (next : Inputs) : Prop :=
  s.inp.rst = false → busRequest (adapterIn s) = true → ackNow s = false → adapterIn { sysTick s with inp := next } = adapterIn s

/-- A window that is open and has not been acknowledged yet. -/
def awaitsFirstAck (x : FsmState) : Bool :=
  match x with
  | .cmd => true
  | .rwdsWait => true
  | .readStart => true
  | .latencyWrite => true
  | .idle => false
  | .readAck => false
  | .readBurst => false
  | .wPrep => false
  | .writeBurst => false
  | .writeFinish => false
  | .timeout => false
  | .cleanup => false

/-- The arbiter must keep the master over the tick that ends this cycle (`20_memory.md` R68, R333): a request, from its
first cycle on, is not acknowledged yet, or the window of one that was dropped is not (R334: its acknowledgment must
reach no other master); or the burst goes on: the transfer acknowledged in this cycle is `LINEAR_BURST`, or the last one
was and the burst's next request has had no acknowledgment. -/
def masterBound (s : State) : Bool :=
  if ackNow s then burstHint (adapterIn s)
  else busRequest (adapterIn s) || awaitsFirstAck s.fsm.state || s.fsm.contHint

/-- R68, R333: the arbiter keeps the master from a request's first cycle to its acknowledgment, and to the next request of
its burst; the lines of this cycle against those of the next. DESIGN CHOICE, log entry 29: no obligation runs over a
cycle with `rst` = 1. -/
def GrantHeld (s : State) (next : Inputs) : Prop :=
  s.inp.rst = false → masterBound s = true → next.grant = s.inp.grant

/-- R335: no configuration write to a busy engine. -/
def ConfigWhenIdle (s : State) (e : EngineId) : Prop :=
  (s.engine e).busy = true →
    csrWrites (s.inp.eng e).csr 0 = false ∧ csrWrites (s.inp.eng e).csr 1 = false ∧
      csrWrites (s.inp.eng e).csr 2 = false

/-- R336: the tap is not moved while chip-select is asserted. -/
def DelayWhenIdle (s : State) : Prop :=
  s.fsm.cs = true → s.inp.dly.getLsbD 2 = false ∧ s.inp.dly.getLsbD 1 = false

/-- `20_memory.md` R64: the device, whose initial content is `init`, is word-faithful in this cycle: where the tick
captures a word, which is the window's word number `burst_cnt`, the sampled word is the stored one. DESIGN CHOICE, log
entry 4: a tick with `rst` = 1 is no capture, whatever the state and the strobe, since it executes no
`read_data <- rx_word`; R64 does not name that case. -/
def FaithfulCapture (init : Nat → Byte) (s : State) : Prop :=
  s.inp.rst = false → captureNow s.fsm s.phy = true → s.phy.rxWord = deviceRead init s.fsm.ca s.fsm.burstCnt.toNat s.devMem

/-- `20_memory.md` R64: the device is word-faithful on reads throughout a run. On writes (R65) it is so by construction. -/
def FaithfulRun (init : Nat → Byte) (l : Nat → Inputs) (s : State) : Prop :=
  ∀ n, FaithfulCapture init (cycleAt l s n)

/-- The strobe is qualified, or a system reset ends the window, in one of the 128 cycles from cycle `n` on
(`20_memory.md` R66; that a reset releases the device is DESIGN CHOICE, log entry 4). -/
def StrobeInTime (l : Nat → Inputs) (s : State) (n : Nat) : Prop :=
  ∃ j < Config.timeoutCycles, (l (n + j)).rst = true ∨
    qual (cycleAt l s (n + j)).fsm (cycleAt l s (n + j)).phy = true

/-- `20_memory.md` R66: the environment is responsive throughout a run: in time after `RWDS_WAIT` is entered, again in time
after `READ_START` is entered, and in every cycle of `READ_BURST` that may continue. A state is entered with the phase
counter 0. -/
structure ResponsiveRun (l : Nat → Inputs) (s : State) : Prop where
  command : ∀ n, (cycleAt l s n).fsm.state = .rwdsWait → (cycleAt l s n).fsm.phaseCnt = 0 → StrobeInTime l s n
  firstWord : ∀ n, (cycleAt l s n).fsm.state = .readStart → (cycleAt l s n).fsm.phaseCnt = 0 → StrobeInTime l s n
  burst : ∀ n, (cycleAt l s n).fsm.state = .readBurst → mayContinue (cycleAt l s n).fsm = true →
    qual (cycleAt l s n).fsm (cycleAt l s n).phy = true

/-- What counts as a safe cycle: the machine's invariant, and the environment's obligations towards the engines and the
delay line. -/
structure SafeCycle (s : State) : Prop where
  inv : s.Inv
  config : ∀ e, ConfigWhenIdle s e
  delay : DelayWhenIdle s

/-- What counts as a safe tick, between a cycle and one with the lines `next`: the requester's and the arbiter's
obligations. -/
structure SafeTick (s : State) (next : Inputs) : Prop where
  cycle : SafeCycle s
  request : RequestHeld s next
  grant : GrantHeld s next

end Sys2Proof.Machine
end

