-- ==== Sys2Proof/Certificates/Slice0/Obligations.lean ====
section
/-! DEFINITION. The statements for the provers. Each docstring names the rules of spec/ a statement formalises. "A tick
without reset" is a cycle whose `rst` line is 0; what happens with `rst` = 1 is `ResetOverridesEveryOperation`. -/

section Slice0
open Sys2Proof Sys2Proof.Machine

/-! ### Encodings -/

/-- Decode and encode agree on every well-formed operation of the table, with every operand at every value
(`30_encoding.md` R101). -/
def Obligations.DecodeOfEncode : Prop :=
  ∀ i : Instr, i.WellFormed = true → decode (encode i) = .ok i

/-- Each operation word has one meaning: what decodes is well-formed, and it encodes to the word it came from
(`30_encoding.md` R99, R101). -/
def Obligations.EncodeOfDecode : Prop :=
  ∀ (w : OpWord) (i : Instr), decode w = .ok i → i.WellFormed = true ∧ encode i = w

/-- A few words written out from the encoding tables decode to the operations they stand for (`30_encoding.md` R81, R85,
R89, R90, R95, R96, R97, R102). -/
def Obligations.WordsOfTheTablesDecode : Prop :=
  decode ⟨.ca, 0xA00000010002, .none⟩ = .ok (.caRd 1 1) ∧
  decode ⟨.ca, 0x2002AF370004, .none⟩ = .ok (.caWr 0x2AF37 2) ∧
  decode ⟨.bus, 0b10010, .bus ⟨0x20, 0b0011, 7⟩⟩ = .ok (.busRdBurst ⟨0x20, 0b0011, 7⟩) ∧
  decode ⟨.csr .reader, 0b1100, .data 1⟩ = .ok (.csrWrEnable .reader 1) ∧
  decode ⟨.dly, 0b011, .none⟩ = .ok .dlyDec ∧
  decode ⟨.fsm, 0b0111, .none⟩ = .ok .fsmWPrep ∧
  decode ⟨.eng .writer, 1, .none⟩ = .ok (.engActive .writer) ∧
  decode ⟨.strm .writer, 0b10, .data 5⟩ = .ok (.strmUnderflow .writer 5) ∧
  decode ⟨.cdcw 1, 0b011, .payload 0xD0⟩ = .ok (.cdcwPush 1 0xD0) ∧
  decode ⟨.cdcr 0, 0b010, .none⟩ = .ok (.cdcrWait 0)

/-- FSM codes 12 to 15 are no state, and a 48-bit word is a command word exactly if its reserved bits are as R83 says
(`30_encoding.md` R83, R96). The model's choice, log entry 13: R83 says that no decoding of reserved values exists; that
the decoder rejects such a word by the name `notACommandWord` is ours. -/
def Obligations.IllegalCodesRejected : Prop :=
  (∀ n : Nat, 12 ≤ n → n ≤ 15 → decode ⟨.fsm, n, .none⟩ = .error .noSuchState) ∧
  (∀ v : CommandWord, decode ⟨.ca, v.toNat, .none⟩ = .error .notACommandWord ↔ ¬ reservedBitsOk v)

/-- The command word of a request (`41_command_encoder.md` R130): its value as a sum, its half-word address
(`30_encoding.md` R82), the dropping of address bits above 20, and the operation it is on the `CA` port. -/
def Obligations.CommandWordOfARequest : Prop :=
  ∀ (adr : BitVec 32) (we : Bool),
    (encodeCommand adr we).toNat =
      (!we).toNat * 2 ^ 47 + 2 ^ 45 + (adr.extractLsb' 2 19).toNat * 2 ^ 16 + (adr.extractLsb' 0 2).toNat * 2 ∧
    commandHalfword (encodeCommand adr we) = adr.extractLsb' 0 21 ++ 0#1 ∧
    encodeCommand adr we = encodeCommand (adr &&& 0x1FFFFF) we ∧
    reservedBitsOk (encodeCommand adr we) ∧
    decode ⟨.ca, (encodeCommand adr we).toNat, .none⟩ =
      .ok (if we then .caWr (adr.extractLsb' 2 19) (adr.extractLsb' 0 2)
        else .caRd (adr.extractLsb' 2 19) (adr.extractLsb' 0 2))

/-! ### Steps -/

/-- A step runs the decoded operation on the lines of the cycle. The model's choice, log entries 3 and 7: the script of
`30_encoding.md` R100 is held in the state, a step fetches its next event and uses it up, and where it names no operation
the step takes the code of the FSM's state (`10_state.md` R10), with the lines unchanged where the script has ended. -/
def Obligations.StepRunsTheDecodedOperation : Prop :=
  ∀ (s : State) (i : Instr), s.legalBuild = true → decode (fetch s) = .ok i → selects i (nextCycle s) = true →
    step s = exec i (nextCycle s) ∧
    (s.script = [] → fetch s = ⟨.fsm, fsmCode s.fsm.state, .none⟩ ∧ nextCycle s = s) ∧
    (∀ l w rest, s.script = ⟨l, some w⟩ :: rest → fetch s = w ∧ nextCycle s = { s with inp := l, script := rest })

/-- In a cycle for which the script names no operation, the state register alone selects what the step does, and the step
always answers: it is one `sys` tick of the whole machine (`10_state.md` R10, `00_scope.md` R6). -/
def Obligations.PlainCycleIsOneTick : Prop :=
  ∀ s : State, s.legalBuild = true → (∀ c rest, s.script = c :: rest → c.op = none) →
    step s = .next (sysTick (nextCycle s))

/-! ### Reset -/

/-- The registers right after reset (`70_reset_and_hazards.md` R321, `10_state.md` section 7). -/
def Obligations.ResetHoldsTheTable : Prop :=
  State.reset.fsm.state = .idle ∧ State.reset.fsm.cs = false ∧ State.reset.fsm.clkEn = false ∧
  State.reset.fsm.dqOe = false ∧ State.reset.fsm.rwdsOe = false ∧ State.reset.fsm.ca = 0 ∧
  State.reset.fsm.phaseCnt = 0 ∧ State.reset.fsm.burstCnt = 0 ∧ State.reset.fsm.contHint = false ∧
  State.reset.fsm.readData = 0 ∧ State.reset.fsm.strobeLast = true ∧ State.reset.fsm.devRst = true ∧
  State.reset.phy = ⟨0, 0b1111, false, 0, 0, 0, 0⟩ ∧
  (∀ e : EngineId, State.reset.engine e = ⟨0, 0, 256, false, false, false, .idle, 0, 0⟩) ∧
  (∀ q ∈ State.reset.queues, q.wptr = 0 ∧ q.rptr = 0 ∧ q.rptrW1 = 0 ∧ q.rptrW2 = 0 ∧ q.wptrR1 = 0 ∧ q.wptrR2 = 0) ∧
  (∀ c ∈ State.reset.crossings, c.tgl = false ∧ c.t1 = false ∧ c.t2 = false ∧ c.t3 = false ∧ c.stretchCnt = 0)

/-- With `rst` = 1, by the line or by `SYS.RESET`, every operation of the `sys` domain leaves every `sys` register at its
reset value, resets the `sys` side of every queue and crossing, and keeps queue storage and the device's storage
(`70_reset_and_hazards.md` R320, R322, R323). -/
def Obligations.ResetOverridesEveryOperation : Prop :=
  ∀ (i : Instr) (s : State), isSysOp i = true → (s.inp.rst = true ∨ i = .sysReset) →
    ∃ t, exec i s = .next t ∧ t.fsm = State.reset.fsm ∧ t.phy = State.reset.phy ∧
      (∀ e, t.engine e = State.reset.engine e) ∧ t.devMem = s.devMem ∧ t.params = s.params ∧ t.script = s.script ∧
      (∀ (n : Nat) (q : Queue), s.queues[n]? = some q →
        ∃ r : Queue, t.queues[n]? = some r ∧ r.mem = q.mem ∧ r.cfg = q.cfg ∧
        (q.cfg.sysSide = .write → r.wptr = 0 ∧ r.rptrW2 = q.rptrW1 ∧ r.rptrW1 = q.rptr ∧ r.rptr = q.rptr ∧
          r.wptrR1 = q.wptrR1 ∧ r.wptrR2 = q.wptrR2) ∧
        (q.cfg.sysSide = .read → r.rptr = 0 ∧ r.wptrR2 = q.wptrR1 ∧ r.wptrR1 = q.wptr ∧ r.wptr = q.wptr ∧
          r.rptrW1 = q.rptrW1 ∧ r.rptrW2 = q.rptrW2)) ∧
      (∀ (n : Nat) (c : Crossing), s.crossings[n]? = some c → ∃ d : Crossing, t.crossings[n]? = some d ∧
        (c.sysSide = .source → d = { c with tgl := false }) ∧
        (c.sysSide = .dest → d = { c with t1 := false, t2 := false, t3 := false, stretchCnt := 0 }))

/-- The device's reset line falls at the first tick without reset and rises only at a reset
(`70_reset_and_hazards.md` R326). -/
def Obligations.DeviceResetReleasedOnce : Prop :=
  (∀ (i : Instr) (s : State), isSysOp i = true → s.inp.rst = false → i ≠ .sysReset →
    ∃ t, exec i s = .next t ∧ t.fsm.devRst = false) ∧
  (∀ s : State, ∃ t, exec .sysReset s = .next t ∧ t.fsm.devRst = true) ∧
  (∀ (i : Instr) (s t : State), exec i s = .next t → s.fsm.devRst = false → t.fsm.devRst = true →
    s.inp.rst = true ∨ i = .sysReset)

/-! ### The protocol FSM, state by state -/

/-- `IDLE`: a request opens a window with its command word, anything else stays (`42_protocol_fsm.md` R142, R143). -/
def Obligations.IdleTakesARequest : Prop :=
  ∀ s : State, s.inp.rst = false → s.fsm.state = .idle →
    ∃ t, exec .fsmIdle s = .next t ∧ RestTicks s t ∧ t.devMem = s.devMem ∧
      ((adapterIn s).cyc = true ∧ (adapterIn s).stb = true →
        t.fsm = Ticked s { s.fsm with
          state := .cmd, cs := true, clkEn := true, dqOe := true, phaseCnt := 0, burstCnt := 0, contHint := false,
          ca := encodeCommand (adapterIn s).adr (adapterIn s).we } ∧
        QueuedWord t.phy ((encodeCommand (adapterIn s).adr (adapterIn s).we).extractLsb' 16 32) 0) ∧
      ((adapterIn s).cyc = false ∨ (adapterIn s).stb = false →
        t.fsm = Ticked s { s.fsm with state := .idle, phaseCnt := 0, burstCnt := 0, contHint := false } ∧
        IdleWord t.phy)

/-- `CMD`: four cycles, the second half of the command word in the first of them, then the path of the stored direction
(`42_protocol_fsm.md` R144, R145; `30_encoding.md` R84). -/
def Obligations.CommandWindowLastsFourCycles : Prop :=
  ∀ s : State, s.inp.rst = false → s.fsm.state = .cmd → s.fsm.phaseCnt.toNat ≤ 3 →
    ∃ t, exec .fsmCmd s = .next t ∧ RestTicks s t ∧ t.devMem = s.devMem ∧
      (s.fsm.phaseCnt.toNat < 3 → t.fsm = Ticked s { s.fsm with phaseCnt := s.fsm.phaseCnt + 1 }) ∧
      (s.fsm.phaseCnt.toNat = 3 →
        t.fsm = Ticked s { s.fsm with
          dqOe := false, phaseCnt := 0
          state := if s.fsm.ca.getLsbD 47 then .rwdsWait else .latencyWrite }) ∧
      (s.fsm.phaseCnt = 0 → QueuedWord t.phy (s.fsm.ca.extractLsb' 0 16 ++ 0#16) 0) ∧
      (s.fsm.phaseCnt ≠ 0 → IdleWord t.phy)

/-- `RWDS_WAIT` and `READ_START`: a qualified strobe moves on, also in the 128th cycle; without one the wait goes on, and
the 128th cycle ends in `TIMEOUT` (`42_protocol_fsm.md` R141, R146 to R149; `43_burst_timeout_supervisor.md` R183). By
inference from `20_memory.md` R66, a responsive environment never brings that about; that a system reset inside the 128
cycles releases it from its obligation is the model's choice, log entry 4. -/
def Obligations.WaitsForTheStrobeAreBounded : Prop :=
  (∀ s : State, s.inp.rst = false →
    (s.fsm.state = .rwdsWait → ∃ t, exec .fsmRwdsWait s = .next t ∧ RestTicks s t ∧
      t.devMem = s.devMem ∧ IdleWord t.phy ∧
      t.fsm = Ticked s
        (if !s.fsm.strobeLast && s.phy.rxStrobe.getLsbD 3 then { s.fsm with state := .readStart, phaseCnt := 0 }
        else if s.fsm.phaseCnt.toNat = 127 then { s.fsm with state := .timeout, phaseCnt := 0 }
        else { s.fsm with phaseCnt := s.fsm.phaseCnt + 1 })) ∧
    (s.fsm.state = .readStart → ∃ t, exec .fsmReadStart s = .next t ∧ RestTicks s t ∧
      t.devMem = s.devMem ∧ IdleWord t.phy ∧
      t.fsm = Ticked s
        (if !s.fsm.strobeLast && s.phy.rxStrobe.getLsbD 3 then
          { s.fsm with state := .readAck, phaseCnt := 0, readData := s.phy.rxWord }
        else if s.fsm.phaseCnt.toNat = 127 then { s.fsm with state := .timeout, phaseCnt := 0 }
        else { s.fsm with phaseCnt := s.fsm.phaseCnt + 1 }))) ∧
  (∀ (l : Nat → Inputs) (s : State) (n : Nat), s.fsm.state = .idle → ResponsiveRun l s →
    (cycleAt l s n).fsm.state ≠ .timeout)

/-- `READ_ACK` counts the word and takes the hint; `READ_BURST` captures the next word or closes the window
(`42_protocol_fsm.md` R150 to R152). -/
def Obligations.ReadWordsAreDelivered : Prop :=
  ∀ s : State, s.inp.rst = false →
    (s.fsm.state = .readAck → ∃ t, exec .fsmReadAck s = .next t ∧ RestTicks s t ∧
      t.devMem = s.devMem ∧ IdleWord t.phy ∧
      t.out.ack = true ∧ t.out.readData = s.fsm.readData ∧
      t.fsm = Ticked s { s.fsm with
        state := .readBurst, phaseCnt := 0, burstCnt := s.fsm.burstCnt + 1
        contHint := (adapterIn s).cyc && (adapterIn s).stb && ((adapterIn s).cti == 0b010) }) ∧
    (s.fsm.state = .readBurst → ∃ t, exec .fsmReadBurst s = .next t ∧ RestTicks s t ∧
      t.devMem = s.devMem ∧ IdleWord t.phy ∧
      t.out.ack = false ∧
      t.fsm = Ticked s
        (if s.fsm.contHint = true ∧ s.fsm.burstCnt.toNat < 512 ∧ s.fsm.strobeLast = false ∧
            s.phy.rxStrobe.getLsbD 3 = true then
          { s.fsm with state := .readAck, phaseCnt := 0, readData := s.phy.rxWord }
        else { s.fsm with
          state := .idle, cs := false, clkEn := false, phaseCnt := 0, burstCnt := 0, contHint := false }))

/-- `LATENCY_WRITE` lasts `WRITE_LATENCY` cycles; `W_PREP` acknowledges one word, queues it with the inverted byte select
and a word-faithful device stores the selected bytes (`42_protocol_fsm.md` R153 to R155; `20_memory.md` R65). -/
def Obligations.WriteWordsAreSent : Prop :=
  ∀ s : State, s.inp.rst = false →
    (s.fsm.state = .latencyWrite → s.fsm.phaseCnt.toNat < s.params.writeLatency →
      ∃ t, exec .fsmLatencyWrite s = .next t ∧ RestTicks s t ∧
      t.devMem = s.devMem ∧ IdleWord t.phy ∧
        t.fsm = Ticked s
          (if s.fsm.phaseCnt.toNat + 1 = s.params.writeLatency then
            { s.fsm with state := .wPrep, dqOe := true, rwdsOe := true, phaseCnt := 0 }
          else { s.fsm with phaseCnt := s.fsm.phaseCnt + 1 })) ∧
    (s.fsm.state = .wPrep → ∃ t, exec .fsmWPrep s = .next t ∧ RestTicks s t ∧ t.out.ack = true ∧
      QueuedWord t.phy (adapterIn s).datW (~~~(adapterIn s).sel) ∧
      t.fsm = Ticked s { s.fsm with
        state := .writeBurst, phaseCnt := 0, burstCnt := s.fsm.burstCnt + 1
        contHint := (adapterIn s).cyc && (adapterIn s).stb && ((adapterIn s).cti == 0b010) } ∧
      (∀ b < 4, t.devMem.byte (deviceByteAddr s.fsm.ca s.fsm.burstCnt.toNat b) =
        if (adapterIn s).sel.getLsbD (3 - b) then some ((adapterIn s).datW.extractLsb' (24 - 8 * b) 8)
        else s.devMem.byte (deviceByteAddr s.fsm.ca s.fsm.burstCnt.toNat b)) ∧
      (∀ a, (∀ b < 4, a ≠ deviceByteAddr s.fsm.ca s.fsm.burstCnt.toNat b) → t.devMem.byte a = s.devMem.byte a))

/-- `WRITE_BURST` goes back for the next word or ends the window; `WRITE_FINISH` stops the clock
(`42_protocol_fsm.md` R156 to R158). -/
def Obligations.WriteWindowEnds : Prop :=
  ∀ s : State, s.inp.rst = false →
    (s.fsm.state = .writeBurst → ∃ t, exec .fsmWriteBurst s = .next t ∧ RestTicks s t ∧
      t.devMem = s.devMem ∧ IdleWord t.phy ∧
      t.fsm = Ticked s { s.fsm with
        phaseCnt := 0
        state := if s.fsm.contHint = true ∧ s.fsm.burstCnt.toNat < 512 then .wPrep else .writeFinish }) ∧
    (s.fsm.state = .writeFinish → ∃ t, exec .fsmWriteFinish s = .next t ∧ RestTicks s t ∧
      t.devMem = s.devMem ∧ IdleWord t.phy ∧
      t.fsm = Ticked s { s.fsm with state := .cleanup, clkEn := false, phaseCnt := 0 })

/-- `TIMEOUT` forces the acknowledgment and goes to `CLEANUP`; `CLEANUP` turns everything off (`42_protocol_fsm.md` R159,
R160). -/
def Obligations.TimeoutAndCleanup : Prop :=
  ∀ s : State, s.inp.rst = false →
    (s.fsm.state = .timeout → ∃ t, exec .fsmTimeout s = .next t ∧ RestTicks s t ∧
      t.devMem = s.devMem ∧ IdleWord t.phy ∧
      t.out.ack = true ∧ t.fsm = Ticked s { s.fsm with state := .cleanup, phaseCnt := 0 }) ∧
    (s.fsm.state = .cleanup → ∃ t, exec .fsmCleanup s = .next t ∧ RestTicks s t ∧
      t.devMem = s.devMem ∧ IdleWord t.phy ∧
      t.fsm = Ticked s { s.fsm with
        state := .idle, cs := false, clkEn := false, dqOe := false, rwdsOe := false, phaseCnt := 0, burstCnt := 0,
        contHint := false })

/-- The stored command word does not change until the next `IDLE -> CMD` tick, whatever operation takes place
(`41_command_encoder.md` R133). -/
def Obligations.CommandWordIsImmutable : Prop :=
  ∀ (i : Instr) (s t : State), exec i s = .next t → selects i s = true → s.inp.rst = false → i ≠ .sysReset →
    (s.fsm.state ≠ .idle → t.fsm.ca = s.fsm.ca) ∧
    (t.fsm.ca ≠ s.fsm.ca → s.fsm.state = .idle ∧ t.fsm.state = .cmd)

/-! ### Conditions (`60_exceptions.md`) -/

/-- ProtocolTimeout, from the cycle in which it holds to `IDLE`, whatever the lines show in the three cycles: nothing but
the state and the phase counter changes at the first tick, the forced acknowledgment lasts one cycle, and afterwards
everything is off (`60_exceptions.md` R290, R299, R300). -/
def Obligations.TimeoutIsDeliveredAndLeft : Prop :=
  ∀ (s : State) (l1 l2 l3 : Inputs), l1.rst = false → l2.rst = false → l3.rst = false →
    (s.fsm.state = .rwdsWait ∨ s.fsm.state = .readStart) → s.fsm.phaseCnt.toNat = 127 → qual s.fsm s.phy = false →
    (sysCycles [l1] s).fsm = Ticked s { s.fsm with state := .timeout, phaseCnt := 0 } ∧
    IdleWord (sysCycles [l1] s).phy ∧
    ackNow s = false ∧ ackNow (sysCycles [l1] s) = true ∧ ackNow (sysCycles [l1, l2] s) = false ∧
    (sysCycles [l1, l2] s).fsm.state = .cleanup ∧
    (sysCycles [l1, l2] s).fsm.burstCnt = s.fsm.burstCnt ∧
    (sysCycles [l1, l2, l3] s).fsm =
      Ticked (sysCycles [l1, l2] s) { s.fsm with
        state := .idle, phaseCnt := 0, cs := false, clkEn := false, dqOe := false, rwdsOe := false, burstCnt := 0,
        contHint := false } ∧
    (sysCycles [l1, l2, l3] s).devMem = s.devMem

/-- `TIMEOUT` is entered only by ProtocolTimeout, hence only from the two waiting states (`42_protocol_fsm.md` R160,
`60_exceptions.md` R290, R296). -/
def Obligations.TimeoutOnlyAtTheBound : Prop :=
  ∀ (i : Instr) (s t : State), exec i s = .next t → selects i s = true → s.fsm.state ≠ .timeout →
    t.fsm.state = .timeout →
    (s.fsm.state = .rwdsWait ∨ s.fsm.state = .readStart) ∧ s.fsm.phaseCnt.toNat = 127 ∧
      conditionHolds s .protocolTimeout = true

/-- BurstLimitReached ends the window whatever the strobe and the requester show, and a read requester's pending transfer
is taken from `IDLE` in the next cycle with the address it then shows (`60_exceptions.md` R293). -/
def Obligations.BurstLimitEndsTheWindow : Prop :=
  ∀ (s : State) (l1 l2 : Inputs), l1.rst = false → l2.rst = false → s.fsm.contHint = true →
    s.fsm.burstCnt.toNat = 512 →
    (s.fsm.state = .writeBurst → (sysCycles [l1] s).fsm.state = .writeFinish ∧
      (sysCycles [l1, l2] s).fsm.state = .cleanup) ∧
    (s.fsm.state = .readBurst →
      (sysCycles [l1] s).fsm = Ticked s { s.fsm with
        state := .idle, cs := false, clkEn := false, phaseCnt := 0, burstCnt := 0, contHint := false } ∧
      (l2.grant = .external → l2.bus.cyc = true → l2.bus.stb = true →
        (sysCycles [l1, l2] s).fsm.state = .cmd ∧ (sysCycles [l1, l2] s).fsm.burstCnt = 0 ∧
        (sysCycles [l1, l2] s).fsm.ca = encodeCommand l2.bus.adr l2.bus.we))

/-! ### The bus adapter -/

/-- Every request of format `BUS` (the sixteen `BUS.RD.*` and `BUS.WR.*` operations) shown in `IDLE` opens a window at its
address and in its direction; nothing is stored (`44_bus_adapter.md` R192 to R196, `42_protocol_fsm.md` R143). -/
def Obligations.BusRequestOpensAWindow : Prop :=
  ∀ (i : Instr) (we : Bool) (cti : BitVec 3) (o : BusOperands) (s : State), requestOf i = some (we, cti, o) →
    s.inp.rst = false → s.fsm.state = .idle →
    ∃ t, exec i s = .next t ∧ RestTicks s.withExternal t ∧ t.devMem = s.devMem ∧
      t.fsm = Ticked s { s.fsm with
        state := .cmd, cs := true, clkEn := true, dqOe := true, phaseCnt := 0, burstCnt := 0, contHint := false,
        ca := encodeCommand o.adr we } ∧
      QueuedWord t.phy ((encodeCommand o.adr we).extractLsb' 16 32) 0

/-- `CA.RD` and `CA.WR`: the command word, with the rows and columns of the operation, is stored and its first half sent
where the FSM takes a request; anywhere else the stored word stays (`41_command_encoder.md` R131 to R133). The model's
choice, log entry 13: the core has no input of that name; such an operation is the request of the external master whose
address and direction give that word. -/
def Obligations.CommandWordIsStoredAndSent : Prop :=
  ∀ (row : BitVec 19) (col : BitVec 2) (s : State), s.inp.rst = false →
    ∃ t u, exec (.caRd row col) s = .next t ∧ exec (.caWr row col) s = .next u ∧
      RestTicks s.withExternal t ∧ RestTicks s.withExternal u ∧
      (s.fsm.state = .idle → t.devMem = s.devMem ∧ u.devMem = s.devMem ∧
        t.fsm = Ticked s { s.fsm with
          state := .cmd, cs := true, clkEn := true, dqOe := true, phaseCnt := 0, burstCnt := 0, contHint := false,
          ca := encodeCa true row col } ∧
        QueuedWord t.phy ((encodeCa true row col).extractLsb' 16 32) 0 ∧
        u.fsm = Ticked s { s.fsm with
          state := .cmd, cs := true, clkEn := true, dqOe := true, phaseCnt := 0, burstCnt := 0, contHint := false,
          ca := encodeCa false row col } ∧
        QueuedWord u.phy ((encodeCa false row col).extractLsb' 16 32) 0) ∧
      (s.fsm.state ≠ .idle → t.fsm.ca = s.fsm.ca ∧ u.fsm.ca = s.fsm.ca)

/-- `BUS.NOP`: in `IDLE` nothing happens, in an acknowledgment cycle the hint becomes 0 (`44_bus_adapter.md` R197). What
it does elsewhere is `BusVectorIgnoredElsewhere`. -/
def Obligations.BusNopIsNoRequest : Prop :=
  ∀ (we : Bool) (cti : BitVec 3) (s : State), s.inp.rst = false →
    ∃ t, exec (.busNop we cti) s = .next t ∧ RestTicks s.withExternal t ∧
      (s.fsm.state = .idle → t.devMem = s.devMem ∧ IdleWord t.phy ∧
        t.fsm = Ticked s { s.fsm with state := .idle, phaseCnt := 0, burstCnt := 0, contHint := false }) ∧
      (s.fsm.state = .readAck ∨ s.fsm.state = .wPrep → t.fsm.contHint = false)

/-- The acknowledged request's cycle type is the hint, and only `LINEAR_BURST` continues; in `W_PREP` the request's data
and mask go to the pins and, to a word-faithful device, its selected bytes into storage (`42_protocol_fsm.md` R150, R155;
`30_encoding.md` R86 to R88; `20_memory.md` R65). -/
def Obligations.AcknowledgedRequestGivesHintAndData : Prop :=
  ∀ (i : Instr) (we : Bool) (cti : BitVec 3) (o : BusOperands) (s : State), requestOf i = some (we, cti, o) →
    s.inp.rst = false → (s.fsm.state = .readAck ∨ s.fsm.state = .wPrep) →
    ∃ t, exec i s = .next t ∧ RestTicks s.withExternal t ∧
      t.fsm.contHint = (cti == 0b010) ∧ t.fsm.burstCnt = s.fsm.burstCnt + 1 ∧
      t.out.ack = true ∧
      (s.fsm.state = .readAck → t.fsm.state = .readBurst ∧ t.devMem = s.devMem) ∧
      (s.fsm.state = .wPrep → t.fsm.state = .writeBurst ∧ QueuedWord t.phy o.datW (~~~o.sel) ∧
        (∀ b < 4, t.devMem.byte (deviceByteAddr s.fsm.ca s.fsm.burstCnt.toNat b) =
          if o.sel.getLsbD (3 - b) then some (o.datW.extractLsb' (24 - 8 * b) 8)
          else s.devMem.byte (deviceByteAddr s.fsm.ca s.fsm.burstCnt.toNat b)) ∧
        (∀ a, (∀ b < 4, a ≠ deviceByteAddr s.fsm.ca s.fsm.burstCnt.toNat b) → t.devMem.byte a = s.devMem.byte a))

/-- Outside `IDLE`, `READ_ACK` and `W_PREP` the request vector is not looked at: any two operations of format `BUS` leave
the same registers (`42_protocol_fsm.md` R163, `44_bus_adapter.md` R197). -/
def Obligations.BusVectorIgnoredElsewhere : Prop :=
  ∀ (i j : Instr) (s : State), isBusOp i = true → isBusOp j = true → s.fsm.state ≠ .idle → s.fsm.state ≠ .readAck →
    s.fsm.state ≠ .wPrep → ∃ t u, exec i s = .next t ∧ exec j s = .next u ∧ AgreeRegisters t u ∧ t.out = u.out

/-- A request with a reserved cycle type behaves as the `CLASSIC` one with the same operands, in every state
(`44_bus_adapter.md` R196). -/
def Obligations.ReservedCycleTypesAreClassic : Prop :=
  ∀ (i j : Instr) (we : Bool) (cti : BitVec 3) (o : BusOperands) (s : State), requestOf i = some (we, cti, o) →
    cti ∈ [0b001#3, 0b011#3, 0b100#3, 0b101#3, 0b110#3] → requestOf j = some (we, 0b000, o) →
    ∃ t u, exec i s = .next t ∧ exec j s = .next u ∧ AgreeRegisters t u ∧ t.out = u.out

/-- `ack` is never 1 in two consecutive cycles, and it is 1 in a cycle exactly if the cycle counts a word or is a forced
acknowledgment (`44_bus_adapter.md` R198). The bound on the counter is part of the machine's invariant (`10_state.md`
R14). -/
def Obligations.AcknowledgmentsAreSingleCycles : Prop :=
  ∀ s : State, s.inp.rst = false → s.fsm.burstCnt.toNat ≤ 512 →
    (ackNow s = true → ackNow (sysTick s) = false) ∧
    (ackNow s = true ↔ (sysTick s).fsm.burstCnt = s.fsm.burstCnt + 1 ∨ s.fsm.state = .timeout)

/-! ### Storage -/

/-- Whatever operation takes place, a byte of the device's storage changes only where the transmit of a `W_PREP` cycle
puts a byte: byte `b` of the window's word number `burst_cnt` (`20_memory.md` R63, R65). -/
def Obligations.StorageChangesOnlyAtATransmit : Prop :=
  ∀ (i : Instr) (s t : State) (a : Nat), exec i s = .next t → selects i s = true →
    (s.fsm.state = .wPrep → ∀ b < 4, a ≠ deviceByteAddr s.fsm.ca s.fsm.burstCnt.toNat b) →
    t.devMem.byte a = s.devMem.byte a

/-- Round trip through the command encoder and the device contract, whatever the device held initially: what the `k`-th
transmit of a write window stored, the `k`-th capture of a read window at the same address returns; unselected bytes are
as they were; word `k` of a window is word 0 of the window at the address `k` further on. And in a run of the machine: in
an environment that is word-faithful and responsive, a word acknowledged in a write window and then read at the same
address, no other write to it being acknowledged in between, comes back with the read's acknowledgment
(`20_memory.md` R64 to R66, R73, R74). -/
def Obligations.StoredWordsReadBack : Prop :=
  (∀ (init : Nat → Byte) (adr : BitVec 32) (k : Nat) (w : Word) (m : Memory),
    deviceRead init (encodeCommand adr false) k (deviceWrite (encodeCommand adr true) k ⟨w, 0⟩ m) = w ∧
    (∀ (sel : BitVec 4) (b : Nat), b < 4 →
      beatByte (deviceRead init (encodeCommand adr false) k (deviceWrite (encodeCommand adr true) k ⟨w, ~~~sel⟩ m)) b =
        if sel.getLsbD (3 - b) then beatByte w b
        else beatByte (deviceRead init (encodeCommand adr false) k m) b) ∧
    deviceRead init (encodeCommand (adr + BitVec.ofNat 32 k) false) 0 m =
      deviceRead init (encodeCommand adr false) k m) ∧
  (∀ (init : Nat → Byte) (l : Nat → Inputs) (s : State) (n m : Nat), s.Inv → s.fsm.state = .idle →
    (∀ k ≤ m, (l k).rst = false) → FaithfulRun init l s → ResponsiveRun l s → n < m →
    (cycleAt l s n).fsm.state = .wPrep → ackNow (cycleAt l s m) = true → isReadCommand (cycleAt l s m).fsm.ca = true →
    windowHalfword (cycleAt l s m) = windowHalfword (cycleAt l s n) →
    (∀ k, n < k → k < m → (cycleAt l s k).fsm.state = .wPrep →
      windowHalfword (cycleAt l s k) ≠ windowHalfword (cycleAt l s n)) →
    ∀ b < 4, beatByte (busReadData (cycleAt l s m)) b =
      if (adapterIn (cycleAt l s n)).sel.getLsbD (3 - b) then beatByte (adapterIn (cycleAt l s n)).datW b
      else deviceByte init (cycleAt l s n).devMem
        (deviceByteAddr (cycleAt l s n).fsm.ca (cycleAt l s n).fsm.burstCnt.toNat b))

/-! ### The PHY shift layer -/

/-- `PHY.SHIFTOUT`, `PHY.IDLE` and `PHY.SAMPLEIN`: what the output registers and the input pipeline hold after the tick,
lanes that the core drives being sampled with its own output, but in a window in which the tap has been moved
(`40_phy_shift.md` R112, R113, R115, R119). The model's choice, log entry 12: in the core only the FSM's rules call
`shiftOut`; under another call, or none, the protocol controller moves as without the operation, and only a word queued
in `W_PREP` reaches the storage. -/
def Obligations.PhyRegistersAfterATick : Prop :=
  ∀ (w : Word) (m : BitVec 4) (s : State), s.inp.rst = false →
    ∃ t u v, exec (.phyShiftout w m) s = .next t ∧ exec .phyIdle s = .next u ∧ exec (.phySamplein ()) s = .next v ∧
      QueuedWord t.phy w m ∧ IdleWord u.phy ∧
      (windowDisturbed s = false →
        (s.fsm.dqOe = true → v.phy.rxWord = s.phy.txWord) ∧ (s.fsm.rwdsOe = true → v.phy.rxStrobe = s.phy.txMask)) ∧
      (s.fsm.dqOe = false → v.phy.rxWord.toNat = s.inp.pins.d0.toNat * 2 ^ 24 + s.inp.pins.d1.toNat * 2 ^ 16 +
        s.inp.pins.d2.toNat * 2 ^ 8 + s.inp.pins.d3.toNat) ∧
      (s.fsm.rwdsOe = false → v.phy.rxStrobe.toNat = s.inp.pins.s0.toNat * 8 + s.inp.pins.s1.toNat * 4 +
        s.inp.pins.s2.toNat * 2 + s.inp.pins.s3.toNat) ∧
      t.fsm = (sysTick s).fsm ∧ u.fsm = (sysTick s).fsm ∧ v.fsm = (sysTick s).fsm ∧
      RestTicks s t ∧ RestTicks s u ∧ RestTicks s v ∧
      (s.fsm.state ≠ .wPrep → t.devMem = s.devMem) ∧ u.devMem = s.devMem ∧ v.devMem = (sysTick s).devMem

/-- Shift-layer symmetry: a word queued in one cycle, with the pins looped back in the next, is the word sampled two ticks
after the call, with its mask as the strobe samples (`40_phy_shift.md` R117). -/
def Obligations.LoopedBackWordReturns : Prop :=
  ∀ (w : Word) (m : BitVec 4) (s : State), s.inp.rst = false →
    ∃ t u, exec (.phyShiftout w m) s = .next t ∧
      exec (.phySamplein ()) (t.putPins (loopbackPins t.phy)) = .next u ∧ u.phy.rxWord = w ∧ u.phy.rxStrobe = m

/-- The wire image of a word: lane `i` carries bit `31 - 8b - (7 - i)` during beat `b`, the strobe bit `3 - b` of the
mask; the pins follow the registers (`30_encoding.md` R98, `40_phy_shift.md` R111, R114). -/
def Obligations.WireImageOfAWord : Prop :=
  (∀ (w : Word) (b lane : Nat), b < 4 → lane < 8 → laneLevel w b lane = w.getLsbD (31 - 8 * b - (7 - lane))) ∧
  (∀ (w : Word) (h e : Nat), h < 2 → e < 2 → beatByte w (2 * h + e) = (halfWord w h).extractLsb' (8 - 8 * e) 8) ∧
  (∀ (f : Fsm) (x : Phy), (pinDrive f x).csN = !f.cs ∧ (pinDrive f x).clockToggles = f.clkEn ∧
    (pinDrive f x).devRst = f.devRst ∧
    ((pinDrive f x).data = if f.dqOe then some x.txWord else none) ∧
    ((pinDrive f x).strobe = if f.rwdsOe then some x.txMask else none))

/-- `DLY.*`: load wins over move, the tap saturates at both ends; no other register is touched, but that the samples of an
open window in which the tap is moved are unspecified. And no register but the tap, and no output, depends on the tap:
two states that differ in it alone do so still after any operation (`40_phy_shift.md` R118, R119). The model's choice, log
entry 18: `tapMoved` remembers such a window, and its samples are free from the cycle of the move on, not before. -/
def Obligations.DelayTapMoves : Prop :=
  (∀ (s : State) (move dir : Bool), s.inp.rst = false →
    ∃ t u v x, exec (.dlyLoad move dir) s = .next t ∧ exec .dlyInc s = .next u ∧ exec .dlyDec s = .next v ∧
      exec (.dlyHold dir) s = .next x ∧
      t.phy.delayTap = 0 ∧ u.phy.delayTap = min (s.phy.delayTap + 1) s.params.delayTapMax ∧
      v.phy.delayTap = s.phy.delayTap - 1 ∧ x.phy.delayTap = s.phy.delayTap ∧
      (s.fsm.cs = false →
        ∀ y ∈ [t, u, v], AgreeRegisters { y with phy := { y.phy with delayTap := s.phy.delayTap } } x) ∧
      (s.fsm.cs = true → ∀ y ∈ [t, u, v], y.tapMoved = true ∧
        AgreeRegisters { y with phy := { x.phy with
          txWord := y.phy.txWord, txMask := y.phy.txMask, txValid := y.phy.txValid }, tapMoved := x.tapMoved } x) ∧
      (s.inp.dly = 0 → AgreeRegisters x (sysTick s))) ∧
  (∀ (i : Instr) (s t : State) (tap : Nat), exec i s = .next t →
    ∃ u, exec i (s.withTap tap) = .next u ∧ u.withTap t.phy.delayTap = t)

/-! ### The register surface of an engine -/

/-- A write of a configuration register puts its data there; everything else moves as in the same cycle without the access
(`45_dma_engines.md` R212 to R214, `30_encoding.md` R91). -/
def Obligations.ConfigurationWrites : Prop :=
  ∀ (e : EngineId) (v : Word) (s : State), s.inp.rst = false →
    ∃ t u x, exec (.csrWrStartAddress e v) s = .next t ∧ exec (.csrWrTransferSize e v) s = .next u ∧
      exec (.csrWrBurstSize e v) s = .next x ∧
      t.engine e = { (sysTick (s.withoutCsr e)).engine e with startAddress := v } ∧
      u.engine e = { (sysTick (s.withoutCsr e)).engine e with transferSize := v } ∧
      x.engine e = { (sysTick (s.withoutCsr e)).engine e with burstSize := v } ∧
      (∀ y ∈ [t, u, x], AgreeBut e y (sysTick (s.withoutCsr e)))

/-- A write to `done` or to an undefined index is ignored: every register moves as in the same cycle without the access
(`45_dma_engines.md` R215, R219; `30_encoding.md` R92, R94). -/
def Obligations.IgnoredRegisterWrites : Prop :=
  ∀ (e : EngineId) (v : Word) (idx : BitVec 3) (s : State), (idx = 6 ∨ idx = 7) → s.inp.rst = false →
    ∃ t u, exec (.csrWrDone e v) s = .next t ∧ exec (.csrWrUndef e idx v) s = .next u ∧
      AgreeRegisters t (sysTick (s.withoutCsr e)) ∧ AgreeRegisters u (sysTick (s.withoutCsr e))

/-- What a register read returns, from the values before the tick; no read has a side effect (`45_dma_engines.md` R218,
R219; `30_encoding.md` R92 to R94). -/
def Obligations.RegisterReads : Prop :=
  ∀ (e : EngineId) (idx : BitVec 3) (s : State), (idx = 6 ∨ idx = 7) → s.inp.rst = false →
    (∀ p ∈ [(Instr.csrRdStartAddress e, (s.engine e).startAddress),
        (Instr.csrRdTransferSize e, (s.engine e).transferSize), (Instr.csrRdBurstSize e, (s.engine e).burstSize),
        (Instr.csrRdDone e, if (s.engine e).done then 1 else 0), (Instr.csrRdEnable e, 0), (Instr.csrRdReset e, 0),
        (Instr.csrRdUndef e idx, 0)],
      ∃ t, exec p.1 s = .next t ∧ (t.out.eng e).csrData = p.2 ∧ AgreeRegisters t (sysTick (s.withoutCsr e)))

/-- `enable`: the latch is set by every pulse, whatever the data; without external synchronisation the pulse starts an
engine that is not busy and has no zero size, and otherwise starts nothing (`45_dma_engines.md` R216, R220, R222 to
R225). -/
def Obligations.EnableStartsAnEngine : Prop :=
  ∀ (e : EngineId) (v : Word) (s : State), s.inp.rst = false →
    (∀ i ∈ [Instr.csrWrEnable e v, Instr.dmaStartLocal e],
      ∃ t, exec i s = .next t ∧ AgreeBut e t (sysTick (s.withoutCsr e)) ∧
        (extSyncOf s.params e = false → (s.engine e).busy = false → (s.engine e).est = .idle →
          (s.engine e).transferSize ≠ 0 → (s.engine e).burstSize ≠ 0 →
          t.engine e = { s.engine e with enabled := true, busy := true, wordCnt := 0, bwordCnt := 0 }) ∧
        ((extSyncOf s.params e = true ∨ (s.engine e).busy = true ∨ (s.engine e).transferSize = 0 ∨
            (s.engine e).burstSize = 0) →
          t.engine e = { (sysTick (s.withoutCsr e)).engine e with enabled := true }))

/-- `start`: honoured with external synchronisation and the latch set, in an engine that is not busy and has no zero size;
otherwise the cycle is as without it (`45_dma_engines.md` R220 to R223, R225). -/
def Obligations.ExternalStart : Prop :=
  ∀ (e : EngineId) (s : State), s.inp.rst = false → (s.inp.eng e).csr = none → (s.inp.eng e).start = false →
    ∃ t, exec (.dmaStartExt e) s = .next t ∧ AgreeBut e t (sysTick s) ∧
      (extSyncOf s.params e = true → (s.engine e).enabled = true → (s.engine e).busy = false →
        (s.engine e).est = .idle → (s.engine e).transferSize ≠ 0 → (s.engine e).burstSize ≠ 0 →
        t.engine e = { s.engine e with busy := true, wordCnt := 0, bwordCnt := 0 }) ∧
      ((extSyncOf s.params e = false ∨ (s.engine e).enabled = false ∨ (s.engine e).busy = true ∨
          (s.engine e).transferSize = 0 ∨ (s.engine e).burstSize = 0) → AgreeRegisters t (sysTick s))

/-- `reset`: in any state and in any cycle, that of the last acknowledgment included, the engine is idle afterwards with
its three flags and its counters 0 and its configuration kept, drives nothing, and nothing else is touched
(`45_dma_engines.md` R217, R226, R227; `60_exceptions.md` R294). -/
def Obligations.EngineResetAborts : Prop :=
  ∀ (e : EngineId) (v : Word) (s : State), s.inp.rst = false →
    ∃ t, exec (.csrWrReset e v) s = .next t ∧ AgreeBut e t (sysTick (s.withoutCsr e)) ∧
      t.engine e = { s.engine e with
        busy := false, done := false, enabled := false, est := .idle, wordCnt := 0, bwordCnt := 0 } ∧
      (engineBus t e).cyc = false ∧ (engineBus t e).stb = false ∧ engineLevel t e = false ∧
      transferCompleteNow t e = false

/-- The configuration registers change only by their own writes and by system reset (`10_state.md` R23). -/
def Obligations.ConfigurationFrame : Prop :=
  ∀ (i : Instr) (e : EngineId) (s t : State), exec i s = .next t → s.inp.rst = false → i ≠ .sysReset →
    i.WellFormed = true → (s.inp.eng e).csr = none → configures i ≠ some e → configOf (t.engine e) = configOf (s.engine e)

/-- `done` is sticky: once set it is cleared only by a `reset` write or system reset, and it is set only by a completion:
the last word of the transfer acknowledged while the engine is active (`10_state.md` R24, `45_dma_engines.md` R235). -/
def Obligations.DoneIsSticky : Prop :=
  ∀ (i : Instr) (e : EngineId) (s t : State), exec i s = .next t → selects i s = true → s.inp.rst = false →
    i ≠ .sysReset → i.WellFormed = true → (s.inp.eng e).csr = none →
    ((s.engine e).done = true → resets i ≠ some e → (t.engine e).done = true) ∧
    ((s.engine e).done = false → (t.engine e).done = true →
      (s.engine e).est = .active ∧ (s.engine e).wordCnt = (s.engine e).transferSize - 1 ∧ ackNow s = true ∧
        (t.engine e).busy = false)

/-! ### The engine FSM, its bus and its stream -/

/-- `ENG.IDLE`: a busy engine whose partner is ready (writer) or valid (reader) opens a burst; otherwise nothing changes;
the engine drives no request and no stream level (`45_dma_engines.md` R230, R231). -/
def Obligations.IdleEngineOpensABurst : Prop :=
  ∀ (e : EngineId) (s : State), s.inp.rst = false → (s.inp.eng e).csr = none → (s.inp.eng e).start = false →
    (s.engine e).est = .idle →
    ∃ t, exec (.engIdle e) s = .next t ∧ t = sysTick s ∧
      (engineBus s e).cyc = false ∧ (engineBus s e).stb = false ∧ engineLevel s e = false ∧
      ((s.engine e).busy = true → partnerLevel s e = true →
        t.engine e = { s.engine e with est := .active, bwordCnt := 0 }) ∧
      ((s.engine e).busy = false ∨ partnerLevel s e = false → t.engine e = s.engine e)

/-- `ENG.ACTIVE`: without its acknowledgment nothing changes; with it the word is counted, and the burst's or the
transfer's last word ends the burst, the transfer's last one completing it (`45_dma_engines.md` R232 to R235). The
premise that an active engine is busy is part of the machine's invariant. -/
def Obligations.ActiveEngineCountsWords : Prop :=
  ∀ (e : EngineId) (s : State), s.inp.rst = false → (s.inp.eng e).csr = none → (s.engine e).est = .active →
    (s.engine e).busy = true →
    ∃ t, exec (.engActive e) s = .next t ∧ t = sysTick s ∧
      (ackTo s e = false → t.engine e = s.engine e ∧ (t.out.eng e).transferComplete = false) ∧
      (ackTo s e = true → (s.engine e).wordCnt = (s.engine e).transferSize - 1 →
        (t.out.eng e).transferComplete = true ∧
        t.engine e = { s.engine e with wordCnt := 0, bwordCnt := 0, busy := false, done := true, est := .idle }) ∧
      (ackTo s e = true → (s.engine e).wordCnt ≠ (s.engine e).transferSize - 1 →
        (s.engine e).bwordCnt = (s.engine e).burstSize - 1 →
        (t.out.eng e).transferComplete = false ∧
        t.engine e = { s.engine e with wordCnt := (s.engine e).wordCnt + 1, bwordCnt := 0, est := .idle }) ∧
      (ackTo s e = true → (s.engine e).wordCnt ≠ (s.engine e).transferSize - 1 →
        (s.engine e).bwordCnt ≠ (s.engine e).burstSize - 1 →
        (t.out.eng e).transferComplete = false ∧
        t.engine e = { s.engine e with
          wordCnt := (s.engine e).wordCnt + 1, bwordCnt := (s.engine e).bwordCnt + 1 })

/-- An active engine that the arbiter connects is served: its request opens a window at the word `start_address[31:2] +
word_cnt`, read for the writer, write for the reader, and at an acknowledgment its hint is 1 unless the word is the
burst's last (`45_dma_engines.md` R236 to R240). -/
def Obligations.EngineRequestIsServed : Prop :=
  ∀ (e : EngineId) (s : State), s.inp.rst = false → s.inp.grant = .engine e → (s.engine e).est = .active →
    (s.fsm.state = .idle → (sysTick s).fsm.state = .cmd ∧
      (sysTick s).fsm.ca =
        encodeCommand ((((s.engine e).startAddress >>> 2).toNat + (s.engine e).wordCnt.toNat : Nat) : BitVec 32)
          (e == .reader)) ∧
    (s.fsm.state = .readAck ∨ s.fsm.state = .wPrep →
      (sysTick s).fsm.contHint =
        !(((s.engine e).wordCnt == (s.engine e).transferSize - 1) ||
          ((s.engine e).bwordCnt == (s.engine e).burstSize - 1))) ∧
    (s.fsm.state = .wPrep → e = .reader → QueuedWord (sysTick s).phy (sinkDataIn s) 0)

/-- The stream codes: the levels on the port, the word moved and the diagnostics in the cycle; `own` is the engine's own
level, active and acknowledged (`30_encoding.md` R89, `45_dma_engines.md` R241 to R244). -/
def Obligations.StreamCodesOfACycle : Prop :=
  ∀ (data : Word) (s : State) (own : Bool), s.inp.rst = false →
    (engineLevel s .writer = own →
      ∃ t u v x, exec (.strmXfer .writer data) s = .next t ∧ exec (.strmOverflow .writer data) s = .next u ∧
        exec (.strmUnderflow .writer data) s = .next v ∧ exec (.strmIdle .writer data) s = .next x ∧
        (∀ y ∈ [t, u], y.out.writer.valid = own ∧ y.out.writer.ready = true ∧ y.out.writer.data = busReadData s ∧
          y.out.writer.overflow = !own ∧ y.out.writer.underflow = false) ∧
        (∀ y ∈ [v, x], y.out.writer.valid = own ∧ y.out.writer.ready = false ∧ y.out.writer.data = busReadData s ∧
          y.out.writer.overflow = false ∧ y.out.writer.underflow = own)) ∧
    (engineLevel s .reader = own →
      ∃ t u v x, exec (.strmXfer .reader data) s = .next t ∧ exec (.strmUnderflow .reader data) s = .next u ∧
        exec (.strmOverflow .reader data) s = .next v ∧ exec (.strmIdle .reader data) s = .next x ∧
        (∀ y ∈ [t, u], y.out.reader.valid = true ∧ y.out.reader.ready = own ∧ y.out.reader.data = data ∧
          y.out.reader.overflow = false ∧ y.out.reader.underflow = !own) ∧
        (∀ y ∈ [v, x], y.out.reader.valid = false ∧ y.out.reader.ready = own ∧ y.out.reader.data = data ∧
          y.out.reader.overflow = own ∧ y.out.reader.underflow = false))

/-- Overflow and underflow change no state: while the engine is active, any two stream codes with the same data leave the
same registers; the counters advance all the same (`45_dma_engines.md` R244, R245; `60_exceptions.md` R291, R292). -/
def Obligations.DiagnosticsChangeNothing : Prop :=
  ∀ (e : EngineId) (data : Word) (s : State), (s.engine e).est = .active →
    (∀ i ∈ [Instr.strmXfer e data, Instr.strmOverflow e data, Instr.strmUnderflow e data, Instr.strmIdle e data],
      ∃ t u, exec i s = .next t ∧ exec (.strmXfer e data) s = .next u ∧ AgreeRegisters t u ∧
        (e = .writer ∨ sinkDataIn s = data → AgreeRegisters t (sysTick s)))

/-! ### Queues and crossings -/

/-- The write side without reset, where nothing unclean has happened (its first running tick after a clean flush
included, and its ticks while only the read side is in reset, in a clean flush, which `vouched` says, log entry 6): the synchroniser shifts; a payload is taken exactly if one is offered and the write side's view is not full;
entry and pointer are written by the same tick (`46_cdc_queue.md` R262, R263, R265). `CDCW.PUSH` and `CDCW.STALL` are one
offer, told apart by the room. Otherwise the queue is left unspecified, by fresh free values, until the next clean flush
(R269; how the model does it is log entry 6). -/
def Obligations.QueueWriteSideTick : Prop :=
  ∀ (n data : Nat) (ready : Bool) (s : State) (q : Queue), s.queues[n]? = some q →
    (q.cfg.sysSide = .write → s.inp.rst = false) →
    ∃ t u v, exec (.cdcwPush n data) s = .next t ∧ exec (.cdcwStall n data) s = .next u ∧
      exec (.cdcwIdle n ready data) s = .next v ∧ t.queues[n]? = u.queues[n]? ∧
      (writeTrusted q.flush = true →
        v.queues[n]? = some { q with
          rptrW2 := q.rptrW1, rptrW1 := q.rptr, accepted := false, flush := { q.flush with wIn := false } } ∧
        (levelW q ≠ queueDepth q → ∃ r, t.queues[n]? = some r ∧
          r = { q with
            rptrW2 := q.rptrW1, rptrW1 := q.rptr, accepted := true, wptr := (q.wptr + 1) % (2 * queueDepth q),
            flush := { q.flush with wIn := false }, mem := r.mem } ∧
          (∀ k, cellRead r.mem k =
            if k = q.wptr % queueDepth q then some (data % 2 ^ q.cfg.width) else cellRead q.mem k)) ∧
        (levelW q = queueDepth q →
          t.queues[n]? = some { q with
            rptrW2 := q.rptrW1, rptrW1 := q.rptr, accepted := false, flush := { q.flush with wIn := false } })) ∧
      (writeTrusted q.flush = false → ∀ y ∈ [t, u, v], ∃ r, y.queues[n]? = some r ∧ r.cfg = q.cfg ∧
        r.generation = q.generation + 1 ∧
        r.flush = { q.flush with wIn := false, both := false, unclean := true }) ∧
      (q.cfg.sysSide = .write → (queueLines s n).rst = false → ∀ y ∈ [t, u, v],
        AgreeCore y (sysTick s) ∧ y.crossings = (sysTick s).crossings ∧
          ∀ m, m ≠ n → y.queues[m]? = (sysTick s).queues[m]?)

/-- The read side without reset, where nothing unclean has happened (its first running tick after a clean flush
included, and its ticks while only the write side is in reset, in a clean flush, which `vouched` says, log entry 6): the synchroniser shifts; the head is taken exactly if the read side sees an entry and the consumer is ready
(`46_cdc_queue.md` R262, R264, R270). Otherwise the queue is left unspecified, by fresh free values, until the next clean
flush (R269; how the model does it is log entry 6). -/
def Obligations.QueueReadSideTick : Prop :=
  ∀ (n : Nat) (ready : Bool) (s : State) (q : Queue), s.queues[n]? = some q →
    (q.cfg.sysSide = .read → s.inp.rst = false) →
    ∃ t u v, exec (.cdcrPop n) s = .next t ∧ exec (.cdcrWait n) s = .next u ∧
      exec (.cdcrEmpty n ready) s = .next v ∧
      (readTrusted q.flush = true →
        u.queues[n]? = some { q with
          wptrR2 := q.wptrR1, wptrR1 := q.wptr, popped := none, flush := { q.flush with rIn := false } } ∧
        (q.rptr ≠ q.wptrR2 →
          t.queues[n]? = some { q with
            wptrR2 := q.wptrR1, wptrR1 := q.wptr, rptr := (q.rptr + 1) % (2 * queueDepth q),
            popped := some (headEntry q), flush := { q.flush with rIn := false } }) ∧
        (q.rptr = q.wptrR2 → v.queues[n]? = u.queues[n]? ∧ t.queues[n]? = u.queues[n]?)) ∧
      (readTrusted q.flush = false → ∀ y ∈ [t, u, v], ∃ r, y.queues[n]? = some r ∧ r.cfg = q.cfg ∧
        r.generation = q.generation + 1 ∧
        r.flush = { q.flush with rIn := false, both := false, unclean := true }) ∧
      (q.cfg.sysSide = .read → (queueLines s n).rst = false → ∀ y ∈ [t, u, v],
        AgreeCore y (sysTick s) ∧ y.crossings = (sysTick s).crossings ∧
          ∀ m, m ≠ n → y.queues[m]? = (sysTick s).queues[m]?)

/-- A side's reset clears its own pointer and nothing else of the queue; the synchroniser keeps running, storage is kept,
nothing is accepted or delivered (`46_cdc_queue.md` R266, R267). Where the side is in `sys`, the rest of `sys` moves as in
the same cycle without the operation, as far as the engines do not face a side that was not in reset. -/
def Obligations.QueueSideResets : Prop :=
  ∀ (n data : Nat) (valid ready : Bool) (s : State) (q : Queue), s.queues[n]? = some q →
    ∃ t u r x, exec (.cdcwReset n valid ready data) s = .next t ∧ exec (.cdcrReset n valid ready) s = .next u ∧
      t.queues[n]? = some r ∧ u.queues[n]? = some x ∧
      r = { q with rptrW2 := q.rptrW1, rptrW1 := q.rptr, wptr := 0, accepted := false, flush := r.flush } ∧
      x = { q with wptrR2 := q.wptrR1, wptrR1 := q.wptr, rptr := 0, popped := none, flush := x.flush } ∧
      sinkReady true q = false ∧ sourceValid true q = false ∧
      (s.inp.rst = true ∨ (queueLines s n).rst = true ∨ (∀ e, (s.inp.eng e).partner ≠ .queue n) →
        ∀ y, (y = t ∧ q.cfg.sysSide = .write) ∨ (y = u ∧ q.cfg.sysSide = .read) →
          AgreeCore y (sysTick s) ∧ y.crossings = (sysTick s).crossings ∧
            ∀ m, m ≠ n → y.queues[m]? = (sysTick s).queues[m]?)

/-- A tick of a foreign domain is one step of all the far ends that are in that domain, each on its own lines, and touches
nothing else of the machine (`00_scope.md` R5, R6; `46_cdc_queue.md` R261). An operation on the far side of a queue or on
the far end of a crossing is the tick of that end's domain. -/
def Obligations.ForeignTicksTouchTheirDomain : Prop :=
  (∀ (n data : Nat) (valid ready : Bool) (s t : State) (q : Queue), s.queues[n]? = some q →
    (q.cfg.sysSide = .read ∧
        (∃ i ∈ [Instr.cdcwReset n valid ready data, .cdcwPush n data, .cdcwStall n data, .cdcwIdle n ready data],
          exec i s = .next t)) ∨
      (q.cfg.sysSide = .write ∧
        (∃ i ∈ [Instr.cdcrReset n valid ready, .cdcrPop n, .cdcrWait n, .cdcrEmpty n ready], exec i s = .next t)) →
    DomainFrame q.cfg.farDomain s t ∧ (∀ m, m ≠ n → QueueMoved q.cfg.farDomain m s t) ∧
      ∀ y, CrossingMoved q.cfg.farDomain y s t) ∧
  (∀ (x : Nat) (pulse : Bool) (s t : State) (c : Crossing), s.crossings[x]? = some c →
    (c.sysSide = .dest ∧ exec (.pulseSend x pulse) s = .next t) ∨
      (c.sysSide = .source ∧ exec (.pulseSync x) s = .next t) →
    DomainFrame c.farDomain s t ∧ (∀ m, QueueMoved c.farDomain m s t) ∧
      ∀ y, y ≠ x → CrossingMoved c.farDomain y s t)

/-- Every stop has a name: a step refuses a build outside its parameters' range (`93_implementation_defined.md` U12), a
word that is no operation, and a state code that the register does not hold (`10_state.md` R10); an operation on a queue
or a crossing that the platform does not have faults. The names are the model's choice (log entries 2 and 7): the spec
leaves the number of queues open (`92_eei_decisions.md` D37). -/
def Obligations.StopsByName : Prop :=
  (∀ s : State,
    (s.legalBuild = false → step s = .refused .illegalBuild) ∧
    (∀ e, s.legalBuild = true → decode (fetch s) = .error e → step s = .refused (.undecodable e)) ∧
    (∀ i, s.legalBuild = true → decode (fetch s) = .ok i → selects i (nextCycle s) = false →
      step s = .refused .notTheStateCode)) ∧
  (∀ (n data : Nat) (valid ready pulse : Bool) (s : State),
    (s.queues.length ≤ n →
      ∀ i ∈ [Instr.cdcwReset n valid ready data, .cdcwPush n data, .cdcwStall n data, .cdcwIdle n ready data,
          .cdcrReset n valid ready, .cdcrPop n, .cdcrWait n, .cdcrEmpty n ready],
        exec i s = .fault (.noSuchQueue n)) ∧
    (s.crossings.length ≤ n →
      ∀ i ∈ [Instr.pulseSend n pulse, .pulseSync n], exec i s = .fault (.noSuchCrossing n)))

/-- From a clean flush on (power-on, or the state a clean flush leaves, in which each side leaves its reset when it likes
and none goes back into one): what the consumer takes is, in the same order and without loss or duplication, what was
accepted, and at most `CDC_DEPTH` entries are under way; the pointers count pushes and pops; for every interleaving of the
two clocks (`46_cdc_queue.md` R271 (a), (b)). -/
def Obligations.QueueKeepsOrder : Prop :=
  ∀ (q : Queue) (evs : List QueueEvent), q.wptr = 0 → q.rptr = 0 → q.rptrW1 = 0 → q.rptrW2 = 0 → q.wptrR1 = 0 →
    q.wptrR2 = 0 → writeTrusted q.flush = true → readTrusted q.flush = true →
    staysReleased q.flush.wIn q.flush.rIn evs = true →
    (∃ waiting, pushesOf evs q = popsOf evs q ++ waiting ∧ waiting.length ≤ queueDepth q) ∧
    (queueRun evs q).wptr = (pushesOf evs q).length % (2 * queueDepth q) ∧
    (queueRun evs q).rptr = (popsOf evs q).length % (2 * queueDepth q)

/-- From a clean flush on, with no pops exactly `CDC_DEPTH` pushes are accepted (`46_cdc_queue.md` R271 (e)). -/
def Obligations.QueueCapacity : Prop :=
  ∀ (q : Queue) (data : List Nat), q.wptr = 0 → q.rptr = 0 → q.rptrW1 = 0 → q.rptrW2 = 0 →
    writeTrusted q.flush = true →
    (pushesOf (data.map fun d => .write false true d) q).length = min data.length (queueDepth q)

/-- A clean flush: both sides in reset, and each at least two of its own ticks more after both pointers are 0, whatever
went before, an unclean reset of one side included. Then every pointer and stage is 0, both sides see an empty queue, and
the release is no unclean one: the queue can be trusted on both sides, and a side's next tick out of reset draws no free
value (`46_cdc_queue.md` R268). -/
def Obligations.CleanFlushEmptiesTheQueue : Prop :=
  ∀ (q : Queue) (before after : List QueueEvent), (q.flush.wIn = false ∨ q.flush.rIn = false) →
    (∀ ev ∈ before ++ after, ev.running = false) → 1 ≤ ticksOf .write before → 1 ≤ ticksOf .read before →
    2 ≤ ticksOf .write after → 2 ≤ ticksOf .read after →
    (queueRun (before ++ after) q).wptr = 0 ∧ (queueRun (before ++ after) q).rptr = 0 ∧
    (queueRun (before ++ after) q).rptrW1 = 0 ∧ (queueRun (before ++ after) q).rptrW2 = 0 ∧
    (queueRun (before ++ after) q).wptrR1 = 0 ∧ (queueRun (before ++ after) q).wptrR2 = 0 ∧
    writeTrusted (queueRun (before ++ after) q).flush = true ∧
    readTrusted (queueRun (before ++ after) q).flush = true ∧
    sinkReady false (queueRun (before ++ after) q) = true ∧ sourceValid false (queueRun (before ++ after) q) = false ∧
    (∀ valid data, (queueWriteTick false valid data (queueRun (before ++ after) q)).generation = q.generation) ∧
    (∀ ready, (queueReadTick false ready (queueRun (before ++ after) q)).generation = q.generation)

/-- `PULSE.SEND` and `PULSE.SYNC`: the toggle, the three stages and the stretcher, each end's reset line being 0
(`46_cdc_queue.md` R272 to R274). -/
def Obligations.PulseCrossingTicks : Prop :=
  ∀ (x : Nat) (pulse : Bool) (s : State) (c : Crossing), s.crossings[x]? = some c → s.inp.rst = false →
    (crossLines s x).farRst = false →
    ∃ t u, exec (.pulseSend x pulse) s = .next t ∧ exec (.pulseSync x) s = .next u ∧
      t.crossings[x]? = some { c with tgl := if pulse then !c.tgl else c.tgl } ∧
      u.crossings[x]? = some { c with
        t1 := c.tgl, t2 := c.t1, t3 := c.t2
        stretchCnt := if c.t2 ≠ c.t3 then s.params.resetStretch else c.stretchCnt - 1 } ∧
      (c.sysSide = .dest → u = sysTick s) ∧
      (c.sysSide = .source → AgreeCore t (sysTick s) ∧ t.queues = (sysTick s).queues ∧
        ∀ y, y ≠ x → t.crossings[y]? = (sysTick s).crossings[y]?)

/-- One flip of the toggle makes one pulse: `pulse_out` is 1 exactly in the cycles after destination tick 3 up to
`RESET_STRETCH` cycles later (`46_cdc_queue.md` R274). -/
def Obligations.PulseIsStretched : Prop :=
  ∀ (stretch n : Nat) (c : Crossing), c.t1 = c.t2 → c.t2 = c.t3 → c.tgl = !c.t3 → c.stretchCnt = 0 →
    pulseOut (destTicks stretch n c) = decide (3 ≤ n ∧ n < 3 + stretch)

/-! ### The whole machine -/

/-- Every step keeps the invariant: the pins' table, the counters' bounds, the hint, the command word's reserved bits and
direction, the tap's range, the idle word, an active engine busy, queue and crossing ranges, the storage's canonical
form, the build (`42_protocol_fsm.md` R162, `43_burst_timeout_supervisor.md` R181, R185 and the rules the invariant's
fields name). -/
def Obligations.EveryStepKeepsTheInvariant : Prop :=
  ∀ s t : State, s.Inv → step s = .next t → t.Inv

/-- The invariant holds right after reset. -/
def Obligations.ResetHasTheInvariant : Prop := State.reset.Inv

/-- Liveness: a window that has just opened is acknowledged within 260 cycles, whatever the device and the requester do
and whatever the write latency is (`43_burst_timeout_supervisor.md` R185, `42_protocol_fsm.md` R164). -/
def Obligations.WindowIsAcknowledgedInTime : Prop :=
  ∀ (s : State) (ls : List Inputs), s.Inv → s.fsm.state = .cmd → s.fsm.phaseCnt = 0 → ls.length = 260 →
    (∀ l ∈ ls, l.rst = false) → ∃ k ≤ 260, ackNow (sysCycles (ls.take k) s) = true

end Slice0
end

