-- ==== Sys2Proof/Laws/State.lean ====
section
/-! SUPPORT. One lemma per field per update of the state: each says which field an update leaves alone or what it puts
there. -/

namespace Sys2Proof.Machine

/-! ### `putBus` -/

@[simp] theorem putBus_params (s : State) (b : BusIn) : (s.putBus b).params = s.params :=
  rfl

@[simp] theorem putBus_fsm (s : State) (b : BusIn) : (s.putBus b).fsm = s.fsm :=
  rfl

@[simp] theorem putBus_phy (s : State) (b : BusIn) : (s.putBus b).phy = s.phy :=
  rfl

@[simp] theorem putBus_writer (s : State) (b : BusIn) : (s.putBus b).writer = s.writer :=
  rfl

@[simp] theorem putBus_reader (s : State) (b : BusIn) : (s.putBus b).reader = s.reader :=
  rfl

@[simp] theorem putBus_queues (s : State) (b : BusIn) : (s.putBus b).queues = s.queues :=
  rfl

@[simp] theorem putBus_crossings (s : State) (b : BusIn) : (s.putBus b).crossings = s.crossings :=
  rfl

@[simp] theorem putBus_devMem (s : State) (b : BusIn) : (s.putBus b).devMem = s.devMem :=
  rfl

@[simp] theorem putBus_out (s : State) (b : BusIn) : (s.putBus b).out = s.out :=
  rfl

@[simp] theorem putBus_free (s : State) (b : BusIn) : (s.putBus b).free = s.free :=
  rfl

@[simp] theorem putBus_tapMoved (s : State) (b : BusIn) : (s.putBus b).tapMoved = s.tapMoved :=
  rfl

@[simp] theorem putBus_script (s : State) (b : BusIn) : (s.putBus b).script = s.script :=
  rfl

@[simp] theorem putBus_inp_rst (s : State) (b : BusIn) : (s.putBus b).inp.rst = s.inp.rst :=
  rfl

@[simp] theorem putBus_inp_grant (s : State) (b : BusIn) : (s.putBus b).inp.grant = .external :=
  rfl

@[simp] theorem putBus_inp_bus (s : State) (b : BusIn) : (s.putBus b).inp.bus = b :=
  rfl

@[simp] theorem putBus_inp_pins (s : State) (b : BusIn) : (s.putBus b).inp.pins = s.inp.pins :=
  rfl

@[simp] theorem putBus_inp_dly (s : State) (b : BusIn) : (s.putBus b).inp.dly = s.inp.dly :=
  rfl

@[simp] theorem putBus_inp_writer (s : State) (b : BusIn) : (s.putBus b).inp.writer = s.inp.writer :=
  rfl

@[simp] theorem putBus_inp_reader (s : State) (b : BusIn) : (s.putBus b).inp.reader = s.inp.reader :=
  rfl

@[simp] theorem putBus_inp_queues (s : State) (b : BusIn) : (s.putBus b).inp.queues = s.inp.queues :=
  rfl

@[simp] theorem putBus_inp_crossings (s : State) (b : BusIn) : (s.putBus b).inp.crossings = s.inp.crossings :=
  rfl

/-! ### `putRequest` -/

@[simp] theorem putRequest_params (s : State) (we : Bool) (cti : BitVec 3) (o : BusOperands) : (s.putRequest we cti o).params = s.params :=
  rfl

@[simp] theorem putRequest_fsm (s : State) (we : Bool) (cti : BitVec 3) (o : BusOperands) : (s.putRequest we cti o).fsm = s.fsm :=
  rfl

@[simp] theorem putRequest_phy (s : State) (we : Bool) (cti : BitVec 3) (o : BusOperands) : (s.putRequest we cti o).phy = s.phy :=
  rfl

@[simp] theorem putRequest_writer (s : State) (we : Bool) (cti : BitVec 3) (o : BusOperands) : (s.putRequest we cti o).writer = s.writer :=
  rfl

@[simp] theorem putRequest_reader (s : State) (we : Bool) (cti : BitVec 3) (o : BusOperands) : (s.putRequest we cti o).reader = s.reader :=
  rfl

@[simp] theorem putRequest_queues (s : State) (we : Bool) (cti : BitVec 3) (o : BusOperands) : (s.putRequest we cti o).queues = s.queues :=
  rfl

@[simp] theorem putRequest_crossings (s : State) (we : Bool) (cti : BitVec 3) (o : BusOperands) : (s.putRequest we cti o).crossings = s.crossings :=
  rfl

@[simp] theorem putRequest_devMem (s : State) (we : Bool) (cti : BitVec 3) (o : BusOperands) : (s.putRequest we cti o).devMem = s.devMem :=
  rfl

@[simp] theorem putRequest_out (s : State) (we : Bool) (cti : BitVec 3) (o : BusOperands) : (s.putRequest we cti o).out = s.out :=
  rfl

@[simp] theorem putRequest_free (s : State) (we : Bool) (cti : BitVec 3) (o : BusOperands) : (s.putRequest we cti o).free = s.free :=
  rfl

@[simp] theorem putRequest_tapMoved (s : State) (we : Bool) (cti : BitVec 3) (o : BusOperands) : (s.putRequest we cti o).tapMoved = s.tapMoved :=
  rfl

@[simp] theorem putRequest_script (s : State) (we : Bool) (cti : BitVec 3) (o : BusOperands) : (s.putRequest we cti o).script = s.script :=
  rfl

@[simp] theorem putRequest_inp_rst (s : State) (we : Bool) (cti : BitVec 3) (o : BusOperands) : (s.putRequest we cti o).inp.rst = s.inp.rst :=
  rfl

@[simp] theorem putRequest_inp_grant (s : State) (we : Bool) (cti : BitVec 3) (o : BusOperands) : (s.putRequest we cti o).inp.grant = .external :=
  rfl

@[simp] theorem putRequest_inp_bus (s : State) (we : Bool) (cti : BitVec 3) (o : BusOperands) : (s.putRequest we cti o).inp.bus = ⟨true, true, we, o.sel, o.adr, o.datW, cti⟩ :=
  rfl

@[simp] theorem putRequest_inp_pins (s : State) (we : Bool) (cti : BitVec 3) (o : BusOperands) : (s.putRequest we cti o).inp.pins = s.inp.pins :=
  rfl

@[simp] theorem putRequest_inp_dly (s : State) (we : Bool) (cti : BitVec 3) (o : BusOperands) : (s.putRequest we cti o).inp.dly = s.inp.dly :=
  rfl

@[simp] theorem putRequest_inp_writer (s : State) (we : Bool) (cti : BitVec 3) (o : BusOperands) : (s.putRequest we cti o).inp.writer = s.inp.writer :=
  rfl

@[simp] theorem putRequest_inp_reader (s : State) (we : Bool) (cti : BitVec 3) (o : BusOperands) : (s.putRequest we cti o).inp.reader = s.inp.reader :=
  rfl

@[simp] theorem putRequest_inp_queues (s : State) (we : Bool) (cti : BitVec 3) (o : BusOperands) : (s.putRequest we cti o).inp.queues = s.inp.queues :=
  rfl

@[simp] theorem putRequest_inp_crossings (s : State) (we : Bool) (cti : BitVec 3) (o : BusOperands) : (s.putRequest we cti o).inp.crossings = s.inp.crossings :=
  rfl

/-! ### `putNoRequest` -/

@[simp] theorem putNoRequest_params (s : State) (we : Bool) (cti : BitVec 3) : (s.putNoRequest we cti).params = s.params :=
  rfl

@[simp] theorem putNoRequest_fsm (s : State) (we : Bool) (cti : BitVec 3) : (s.putNoRequest we cti).fsm = s.fsm :=
  rfl

@[simp] theorem putNoRequest_phy (s : State) (we : Bool) (cti : BitVec 3) : (s.putNoRequest we cti).phy = s.phy :=
  rfl

@[simp] theorem putNoRequest_writer (s : State) (we : Bool) (cti : BitVec 3) : (s.putNoRequest we cti).writer = s.writer :=
  rfl

@[simp] theorem putNoRequest_reader (s : State) (we : Bool) (cti : BitVec 3) : (s.putNoRequest we cti).reader = s.reader :=
  rfl

@[simp] theorem putNoRequest_queues (s : State) (we : Bool) (cti : BitVec 3) : (s.putNoRequest we cti).queues = s.queues :=
  rfl

@[simp] theorem putNoRequest_crossings (s : State) (we : Bool) (cti : BitVec 3) : (s.putNoRequest we cti).crossings = s.crossings :=
  rfl

@[simp] theorem putNoRequest_devMem (s : State) (we : Bool) (cti : BitVec 3) : (s.putNoRequest we cti).devMem = s.devMem :=
  rfl

@[simp] theorem putNoRequest_out (s : State) (we : Bool) (cti : BitVec 3) : (s.putNoRequest we cti).out = s.out :=
  rfl

@[simp] theorem putNoRequest_free (s : State) (we : Bool) (cti : BitVec 3) : (s.putNoRequest we cti).free = s.free :=
  rfl

@[simp] theorem putNoRequest_tapMoved (s : State) (we : Bool) (cti : BitVec 3) : (s.putNoRequest we cti).tapMoved = s.tapMoved :=
  rfl

@[simp] theorem putNoRequest_script (s : State) (we : Bool) (cti : BitVec 3) : (s.putNoRequest we cti).script = s.script :=
  rfl

@[simp] theorem putNoRequest_inp_rst (s : State) (we : Bool) (cti : BitVec 3) : (s.putNoRequest we cti).inp.rst = s.inp.rst :=
  rfl

@[simp] theorem putNoRequest_inp_grant (s : State) (we : Bool) (cti : BitVec 3) : (s.putNoRequest we cti).inp.grant = .external :=
  rfl

@[simp] theorem putNoRequest_inp_bus (s : State) (we : Bool) (cti : BitVec 3) : (s.putNoRequest we cti).inp.bus = { s.inp.bus with cyc := false, stb := false, we := we, cti := cti } :=
  rfl

@[simp] theorem putNoRequest_inp_pins (s : State) (we : Bool) (cti : BitVec 3) : (s.putNoRequest we cti).inp.pins = s.inp.pins :=
  rfl

@[simp] theorem putNoRequest_inp_dly (s : State) (we : Bool) (cti : BitVec 3) : (s.putNoRequest we cti).inp.dly = s.inp.dly :=
  rfl

@[simp] theorem putNoRequest_inp_writer (s : State) (we : Bool) (cti : BitVec 3) : (s.putNoRequest we cti).inp.writer = s.inp.writer :=
  rfl

@[simp] theorem putNoRequest_inp_reader (s : State) (we : Bool) (cti : BitVec 3) : (s.putNoRequest we cti).inp.reader = s.inp.reader :=
  rfl

@[simp] theorem putNoRequest_inp_queues (s : State) (we : Bool) (cti : BitVec 3) : (s.putNoRequest we cti).inp.queues = s.inp.queues :=
  rfl

@[simp] theorem putNoRequest_inp_crossings (s : State) (we : Bool) (cti : BitVec 3) : (s.putNoRequest we cti).inp.crossings = s.inp.crossings :=
  rfl

/-! ### `putCommand` -/

@[simp] theorem putCommand_params (s : State) (we : Bool) (row : BitVec 19) (col : BitVec 2) : (s.putCommand we row col).params = s.params :=
  rfl

@[simp] theorem putCommand_fsm (s : State) (we : Bool) (row : BitVec 19) (col : BitVec 2) : (s.putCommand we row col).fsm = s.fsm :=
  rfl

@[simp] theorem putCommand_phy (s : State) (we : Bool) (row : BitVec 19) (col : BitVec 2) : (s.putCommand we row col).phy = s.phy :=
  rfl

@[simp] theorem putCommand_writer (s : State) (we : Bool) (row : BitVec 19) (col : BitVec 2) : (s.putCommand we row col).writer = s.writer :=
  rfl

@[simp] theorem putCommand_reader (s : State) (we : Bool) (row : BitVec 19) (col : BitVec 2) : (s.putCommand we row col).reader = s.reader :=
  rfl

@[simp] theorem putCommand_queues (s : State) (we : Bool) (row : BitVec 19) (col : BitVec 2) : (s.putCommand we row col).queues = s.queues :=
  rfl

@[simp] theorem putCommand_crossings (s : State) (we : Bool) (row : BitVec 19) (col : BitVec 2) : (s.putCommand we row col).crossings = s.crossings :=
  rfl

@[simp] theorem putCommand_devMem (s : State) (we : Bool) (row : BitVec 19) (col : BitVec 2) : (s.putCommand we row col).devMem = s.devMem :=
  rfl

@[simp] theorem putCommand_out (s : State) (we : Bool) (row : BitVec 19) (col : BitVec 2) : (s.putCommand we row col).out = s.out :=
  rfl

@[simp] theorem putCommand_free (s : State) (we : Bool) (row : BitVec 19) (col : BitVec 2) : (s.putCommand we row col).free = s.free :=
  rfl

@[simp] theorem putCommand_tapMoved (s : State) (we : Bool) (row : BitVec 19) (col : BitVec 2) : (s.putCommand we row col).tapMoved = s.tapMoved :=
  rfl

@[simp] theorem putCommand_script (s : State) (we : Bool) (row : BitVec 19) (col : BitVec 2) : (s.putCommand we row col).script = s.script :=
  rfl

@[simp] theorem putCommand_inp_rst (s : State) (we : Bool) (row : BitVec 19) (col : BitVec 2) : (s.putCommand we row col).inp.rst = s.inp.rst :=
  rfl

@[simp] theorem putCommand_inp_grant (s : State) (we : Bool) (row : BitVec 19) (col : BitVec 2) : (s.putCommand we row col).inp.grant = .external :=
  rfl

@[simp] theorem putCommand_inp_bus (s : State) (we : Bool) (row : BitVec 19) (col : BitVec 2) : (s.putCommand we row col).inp.bus = { s.inp.bus with cyc := true, stb := true, we := we, adr := (row ++ col).setWidth 32 } :=
  rfl

@[simp] theorem putCommand_inp_pins (s : State) (we : Bool) (row : BitVec 19) (col : BitVec 2) : (s.putCommand we row col).inp.pins = s.inp.pins :=
  rfl

@[simp] theorem putCommand_inp_dly (s : State) (we : Bool) (row : BitVec 19) (col : BitVec 2) : (s.putCommand we row col).inp.dly = s.inp.dly :=
  rfl

@[simp] theorem putCommand_inp_writer (s : State) (we : Bool) (row : BitVec 19) (col : BitVec 2) : (s.putCommand we row col).inp.writer = s.inp.writer :=
  rfl

@[simp] theorem putCommand_inp_reader (s : State) (we : Bool) (row : BitVec 19) (col : BitVec 2) : (s.putCommand we row col).inp.reader = s.inp.reader :=
  rfl

@[simp] theorem putCommand_inp_queues (s : State) (we : Bool) (row : BitVec 19) (col : BitVec 2) : (s.putCommand we row col).inp.queues = s.inp.queues :=
  rfl

@[simp] theorem putCommand_inp_crossings (s : State) (we : Bool) (row : BitVec 19) (col : BitVec 2) : (s.putCommand we row col).inp.crossings = s.inp.crossings :=
  rfl

/-! ### `setEngIn` -/

@[simp] theorem setEngIn_params (s : State) (e : EngineId) (l : EngIn) : (s.setEngIn e l).params = s.params :=
  by cases e <;> rfl

@[simp] theorem setEngIn_fsm (s : State) (e : EngineId) (l : EngIn) : (s.setEngIn e l).fsm = s.fsm :=
  by cases e <;> rfl

@[simp] theorem setEngIn_phy (s : State) (e : EngineId) (l : EngIn) : (s.setEngIn e l).phy = s.phy :=
  by cases e <;> rfl

@[simp] theorem setEngIn_writer (s : State) (e : EngineId) (l : EngIn) : (s.setEngIn e l).writer = s.writer :=
  by cases e <;> rfl

@[simp] theorem setEngIn_reader (s : State) (e : EngineId) (l : EngIn) : (s.setEngIn e l).reader = s.reader :=
  by cases e <;> rfl

@[simp] theorem setEngIn_queues (s : State) (e : EngineId) (l : EngIn) : (s.setEngIn e l).queues = s.queues :=
  by cases e <;> rfl

@[simp] theorem setEngIn_crossings (s : State) (e : EngineId) (l : EngIn) : (s.setEngIn e l).crossings = s.crossings :=
  by cases e <;> rfl

@[simp] theorem setEngIn_devMem (s : State) (e : EngineId) (l : EngIn) : (s.setEngIn e l).devMem = s.devMem :=
  by cases e <;> rfl

@[simp] theorem setEngIn_out (s : State) (e : EngineId) (l : EngIn) : (s.setEngIn e l).out = s.out :=
  by cases e <;> rfl

@[simp] theorem setEngIn_free (s : State) (e : EngineId) (l : EngIn) : (s.setEngIn e l).free = s.free :=
  by cases e <;> rfl

@[simp] theorem setEngIn_tapMoved (s : State) (e : EngineId) (l : EngIn) : (s.setEngIn e l).tapMoved = s.tapMoved :=
  by cases e <;> rfl

@[simp] theorem setEngIn_script (s : State) (e : EngineId) (l : EngIn) : (s.setEngIn e l).script = s.script :=
  by cases e <;> rfl

@[simp] theorem setEngIn_inp_rst (s : State) (e : EngineId) (l : EngIn) : (s.setEngIn e l).inp.rst = s.inp.rst :=
  by cases e <;> rfl

@[simp] theorem setEngIn_inp_grant (s : State) (e : EngineId) (l : EngIn) : (s.setEngIn e l).inp.grant = s.inp.grant :=
  by cases e <;> rfl

@[simp] theorem setEngIn_inp_bus (s : State) (e : EngineId) (l : EngIn) : (s.setEngIn e l).inp.bus = s.inp.bus :=
  by cases e <;> rfl

@[simp] theorem setEngIn_inp_pins (s : State) (e : EngineId) (l : EngIn) : (s.setEngIn e l).inp.pins = s.inp.pins :=
  by cases e <;> rfl

@[simp] theorem setEngIn_inp_dly (s : State) (e : EngineId) (l : EngIn) : (s.setEngIn e l).inp.dly = s.inp.dly :=
  by cases e <;> rfl

@[simp] theorem setEngIn_inp_queues (s : State) (e : EngineId) (l : EngIn) : (s.setEngIn e l).inp.queues = s.inp.queues :=
  by cases e <;> rfl

@[simp] theorem setEngIn_inp_crossings (s : State) (e : EngineId) (l : EngIn) : (s.setEngIn e l).inp.crossings = s.inp.crossings :=
  by cases e <;> rfl

@[simp] theorem setEngIn_inp_eng (s : State) (e : EngineId) (l : EngIn) : (s.setEngIn e l).inp.eng e = l :=
  by cases e <;> rfl

@[simp] theorem setEngIn_writer_inp_reader (s : State) (l : EngIn) : (s.setEngIn .writer l).inp.reader = s.inp.reader :=
  rfl

@[simp] theorem setEngIn_reader_inp_writer (s : State) (l : EngIn) : (s.setEngIn .reader l).inp.writer = s.inp.writer :=
  rfl

/-! ### `putCsr` -/

@[simp] theorem putCsr_params (s : State) (e : EngineId) (a : CsrAccess) : (s.putCsr e a).params = s.params :=
  by cases e <;> rfl

@[simp] theorem putCsr_fsm (s : State) (e : EngineId) (a : CsrAccess) : (s.putCsr e a).fsm = s.fsm :=
  by cases e <;> rfl

@[simp] theorem putCsr_phy (s : State) (e : EngineId) (a : CsrAccess) : (s.putCsr e a).phy = s.phy :=
  by cases e <;> rfl

@[simp] theorem putCsr_writer (s : State) (e : EngineId) (a : CsrAccess) : (s.putCsr e a).writer = s.writer :=
  by cases e <;> rfl

@[simp] theorem putCsr_reader (s : State) (e : EngineId) (a : CsrAccess) : (s.putCsr e a).reader = s.reader :=
  by cases e <;> rfl

@[simp] theorem putCsr_queues (s : State) (e : EngineId) (a : CsrAccess) : (s.putCsr e a).queues = s.queues :=
  by cases e <;> rfl

@[simp] theorem putCsr_crossings (s : State) (e : EngineId) (a : CsrAccess) : (s.putCsr e a).crossings = s.crossings :=
  by cases e <;> rfl

@[simp] theorem putCsr_devMem (s : State) (e : EngineId) (a : CsrAccess) : (s.putCsr e a).devMem = s.devMem :=
  by cases e <;> rfl

@[simp] theorem putCsr_out (s : State) (e : EngineId) (a : CsrAccess) : (s.putCsr e a).out = s.out :=
  by cases e <;> rfl

@[simp] theorem putCsr_free (s : State) (e : EngineId) (a : CsrAccess) : (s.putCsr e a).free = s.free :=
  by cases e <;> rfl

@[simp] theorem putCsr_tapMoved (s : State) (e : EngineId) (a : CsrAccess) : (s.putCsr e a).tapMoved = s.tapMoved :=
  by cases e <;> rfl

@[simp] theorem putCsr_script (s : State) (e : EngineId) (a : CsrAccess) : (s.putCsr e a).script = s.script :=
  by cases e <;> rfl

@[simp] theorem putCsr_inp_rst (s : State) (e : EngineId) (a : CsrAccess) : (s.putCsr e a).inp.rst = s.inp.rst :=
  by cases e <;> rfl

@[simp] theorem putCsr_inp_grant (s : State) (e : EngineId) (a : CsrAccess) : (s.putCsr e a).inp.grant = s.inp.grant :=
  by cases e <;> rfl

@[simp] theorem putCsr_inp_bus (s : State) (e : EngineId) (a : CsrAccess) : (s.putCsr e a).inp.bus = s.inp.bus :=
  by cases e <;> rfl

@[simp] theorem putCsr_inp_pins (s : State) (e : EngineId) (a : CsrAccess) : (s.putCsr e a).inp.pins = s.inp.pins :=
  by cases e <;> rfl

@[simp] theorem putCsr_inp_dly (s : State) (e : EngineId) (a : CsrAccess) : (s.putCsr e a).inp.dly = s.inp.dly :=
  by cases e <;> rfl

@[simp] theorem putCsr_inp_queues (s : State) (e : EngineId) (a : CsrAccess) : (s.putCsr e a).inp.queues = s.inp.queues :=
  by cases e <;> rfl

@[simp] theorem putCsr_inp_crossings (s : State) (e : EngineId) (a : CsrAccess) : (s.putCsr e a).inp.crossings = s.inp.crossings :=
  by cases e <;> rfl

@[simp] theorem putCsr_inp_eng (s : State) (e : EngineId) (a : CsrAccess) : (s.putCsr e a).inp.eng e = { s.inp.eng e with csr := some a } :=
  by cases e <;> rfl

@[simp] theorem putCsr_writer_inp_reader (s : State) (a : CsrAccess) : (s.putCsr .writer a).inp.reader = s.inp.reader :=
  rfl

@[simp] theorem putCsr_reader_inp_writer (s : State) (a : CsrAccess) : (s.putCsr .reader a).inp.writer = s.inp.writer :=
  rfl

/-! ### `putPartner` -/

@[simp] theorem putPartner_params (s : State) (e : EngineId) (on : Bool) (data : Word) : (s.putPartner e on data).params = s.params :=
  by cases e <;> rfl

@[simp] theorem putPartner_fsm (s : State) (e : EngineId) (on : Bool) (data : Word) : (s.putPartner e on data).fsm = s.fsm :=
  by cases e <;> rfl

@[simp] theorem putPartner_phy (s : State) (e : EngineId) (on : Bool) (data : Word) : (s.putPartner e on data).phy = s.phy :=
  by cases e <;> rfl

@[simp] theorem putPartner_writer (s : State) (e : EngineId) (on : Bool) (data : Word) : (s.putPartner e on data).writer = s.writer :=
  by cases e <;> rfl

@[simp] theorem putPartner_reader (s : State) (e : EngineId) (on : Bool) (data : Word) : (s.putPartner e on data).reader = s.reader :=
  by cases e <;> rfl

@[simp] theorem putPartner_queues (s : State) (e : EngineId) (on : Bool) (data : Word) : (s.putPartner e on data).queues = s.queues :=
  by cases e <;> rfl

@[simp] theorem putPartner_crossings (s : State) (e : EngineId) (on : Bool) (data : Word) : (s.putPartner e on data).crossings = s.crossings :=
  by cases e <;> rfl

@[simp] theorem putPartner_devMem (s : State) (e : EngineId) (on : Bool) (data : Word) : (s.putPartner e on data).devMem = s.devMem :=
  by cases e <;> rfl

@[simp] theorem putPartner_out (s : State) (e : EngineId) (on : Bool) (data : Word) : (s.putPartner e on data).out = s.out :=
  by cases e <;> rfl

@[simp] theorem putPartner_free (s : State) (e : EngineId) (on : Bool) (data : Word) : (s.putPartner e on data).free = s.free :=
  by cases e <;> rfl

@[simp] theorem putPartner_tapMoved (s : State) (e : EngineId) (on : Bool) (data : Word) : (s.putPartner e on data).tapMoved = s.tapMoved :=
  by cases e <;> rfl

@[simp] theorem putPartner_script (s : State) (e : EngineId) (on : Bool) (data : Word) : (s.putPartner e on data).script = s.script :=
  by cases e <;> rfl

@[simp] theorem putPartner_inp_rst (s : State) (e : EngineId) (on : Bool) (data : Word) : (s.putPartner e on data).inp.rst = s.inp.rst :=
  by cases e <;> rfl

@[simp] theorem putPartner_inp_grant (s : State) (e : EngineId) (on : Bool) (data : Word) : (s.putPartner e on data).inp.grant = s.inp.grant :=
  by cases e <;> rfl

@[simp] theorem putPartner_inp_bus (s : State) (e : EngineId) (on : Bool) (data : Word) : (s.putPartner e on data).inp.bus = s.inp.bus :=
  by cases e <;> rfl

@[simp] theorem putPartner_inp_pins (s : State) (e : EngineId) (on : Bool) (data : Word) : (s.putPartner e on data).inp.pins = s.inp.pins :=
  by cases e <;> rfl

@[simp] theorem putPartner_inp_dly (s : State) (e : EngineId) (on : Bool) (data : Word) : (s.putPartner e on data).inp.dly = s.inp.dly :=
  by cases e <;> rfl

@[simp] theorem putPartner_inp_queues (s : State) (e : EngineId) (on : Bool) (data : Word) : (s.putPartner e on data).inp.queues = s.inp.queues :=
  by cases e <;> rfl

@[simp] theorem putPartner_inp_crossings (s : State) (e : EngineId) (on : Bool) (data : Word) : (s.putPartner e on data).inp.crossings = s.inp.crossings :=
  by cases e <;> rfl

@[simp] theorem putPartner_inp_eng (s : State) (e : EngineId) (on : Bool) (data : Word) : (s.putPartner e on data).inp.eng e = { s.inp.eng e with partner := .level on data } :=
  by cases e <;> rfl

@[simp] theorem putPartner_writer_inp_reader (s : State) (on : Bool) (data : Word) : (s.putPartner .writer on data).inp.reader = s.inp.reader :=
  rfl

@[simp] theorem putPartner_reader_inp_writer (s : State) (on : Bool) (data : Word) : (s.putPartner .reader on data).inp.writer = s.inp.writer :=
  rfl

/-! ### `putStart` -/

@[simp] theorem putStart_params (s : State) (e : EngineId) : (s.putStart e).params = s.params :=
  by cases e <;> rfl

@[simp] theorem putStart_fsm (s : State) (e : EngineId) : (s.putStart e).fsm = s.fsm :=
  by cases e <;> rfl

@[simp] theorem putStart_phy (s : State) (e : EngineId) : (s.putStart e).phy = s.phy :=
  by cases e <;> rfl

@[simp] theorem putStart_writer (s : State) (e : EngineId) : (s.putStart e).writer = s.writer :=
  by cases e <;> rfl

@[simp] theorem putStart_reader (s : State) (e : EngineId) : (s.putStart e).reader = s.reader :=
  by cases e <;> rfl

@[simp] theorem putStart_queues (s : State) (e : EngineId) : (s.putStart e).queues = s.queues :=
  by cases e <;> rfl

@[simp] theorem putStart_crossings (s : State) (e : EngineId) : (s.putStart e).crossings = s.crossings :=
  by cases e <;> rfl

@[simp] theorem putStart_devMem (s : State) (e : EngineId) : (s.putStart e).devMem = s.devMem :=
  by cases e <;> rfl

@[simp] theorem putStart_out (s : State) (e : EngineId) : (s.putStart e).out = s.out :=
  by cases e <;> rfl

@[simp] theorem putStart_free (s : State) (e : EngineId) : (s.putStart e).free = s.free :=
  by cases e <;> rfl

@[simp] theorem putStart_tapMoved (s : State) (e : EngineId) : (s.putStart e).tapMoved = s.tapMoved :=
  by cases e <;> rfl

@[simp] theorem putStart_script (s : State) (e : EngineId) : (s.putStart e).script = s.script :=
  by cases e <;> rfl

@[simp] theorem putStart_inp_rst (s : State) (e : EngineId) : (s.putStart e).inp.rst = s.inp.rst :=
  by cases e <;> rfl

@[simp] theorem putStart_inp_grant (s : State) (e : EngineId) : (s.putStart e).inp.grant = s.inp.grant :=
  by cases e <;> rfl

@[simp] theorem putStart_inp_bus (s : State) (e : EngineId) : (s.putStart e).inp.bus = s.inp.bus :=
  by cases e <;> rfl

@[simp] theorem putStart_inp_pins (s : State) (e : EngineId) : (s.putStart e).inp.pins = s.inp.pins :=
  by cases e <;> rfl

@[simp] theorem putStart_inp_dly (s : State) (e : EngineId) : (s.putStart e).inp.dly = s.inp.dly :=
  by cases e <;> rfl

@[simp] theorem putStart_inp_queues (s : State) (e : EngineId) : (s.putStart e).inp.queues = s.inp.queues :=
  by cases e <;> rfl

@[simp] theorem putStart_inp_crossings (s : State) (e : EngineId) : (s.putStart e).inp.crossings = s.inp.crossings :=
  by cases e <;> rfl

@[simp] theorem putStart_inp_eng (s : State) (e : EngineId) : (s.putStart e).inp.eng e = { s.inp.eng e with start := true } :=
  by cases e <;> rfl

@[simp] theorem putStart_writer_inp_reader (s : State) : (s.putStart .writer).inp.reader = s.inp.reader :=
  rfl

@[simp] theorem putStart_reader_inp_writer (s : State) : (s.putStart .reader).inp.writer = s.inp.writer :=
  rfl

/-! ### `putDly` -/

@[simp] theorem putDly_params (s : State) (load move dir : Bool) : (s.putDly load move dir).params = s.params :=
  rfl

@[simp] theorem putDly_fsm (s : State) (load move dir : Bool) : (s.putDly load move dir).fsm = s.fsm :=
  rfl

@[simp] theorem putDly_phy (s : State) (load move dir : Bool) : (s.putDly load move dir).phy = s.phy :=
  rfl

@[simp] theorem putDly_writer (s : State) (load move dir : Bool) : (s.putDly load move dir).writer = s.writer :=
  rfl

@[simp] theorem putDly_reader (s : State) (load move dir : Bool) : (s.putDly load move dir).reader = s.reader :=
  rfl

@[simp] theorem putDly_queues (s : State) (load move dir : Bool) : (s.putDly load move dir).queues = s.queues :=
  rfl

@[simp] theorem putDly_crossings (s : State) (load move dir : Bool) : (s.putDly load move dir).crossings = s.crossings :=
  rfl

@[simp] theorem putDly_devMem (s : State) (load move dir : Bool) : (s.putDly load move dir).devMem = s.devMem :=
  rfl

@[simp] theorem putDly_out (s : State) (load move dir : Bool) : (s.putDly load move dir).out = s.out :=
  rfl

@[simp] theorem putDly_free (s : State) (load move dir : Bool) : (s.putDly load move dir).free = s.free :=
  rfl

@[simp] theorem putDly_tapMoved (s : State) (load move dir : Bool) : (s.putDly load move dir).tapMoved = s.tapMoved :=
  rfl

@[simp] theorem putDly_script (s : State) (load move dir : Bool) : (s.putDly load move dir).script = s.script :=
  rfl

@[simp] theorem putDly_inp_rst (s : State) (load move dir : Bool) : (s.putDly load move dir).inp.rst = s.inp.rst :=
  rfl

@[simp] theorem putDly_inp_grant (s : State) (load move dir : Bool) : (s.putDly load move dir).inp.grant = s.inp.grant :=
  rfl

@[simp] theorem putDly_inp_bus (s : State) (load move dir : Bool) : (s.putDly load move dir).inp.bus = s.inp.bus :=
  rfl

@[simp] theorem putDly_inp_pins (s : State) (load move dir : Bool) : (s.putDly load move dir).inp.pins = s.inp.pins :=
  rfl

@[simp] theorem putDly_inp_dly (s : State) (load move dir : Bool) : (s.putDly load move dir).inp.dly = BitVec.ofBool load ++ BitVec.ofBool move ++ BitVec.ofBool dir :=
  rfl

@[simp] theorem putDly_inp_writer (s : State) (load move dir : Bool) : (s.putDly load move dir).inp.writer = s.inp.writer :=
  rfl

@[simp] theorem putDly_inp_reader (s : State) (load move dir : Bool) : (s.putDly load move dir).inp.reader = s.inp.reader :=
  rfl

@[simp] theorem putDly_inp_queues (s : State) (load move dir : Bool) : (s.putDly load move dir).inp.queues = s.inp.queues :=
  rfl

@[simp] theorem putDly_inp_crossings (s : State) (load move dir : Bool) : (s.putDly load move dir).inp.crossings = s.inp.crossings :=
  rfl

/-! ### `putPins` -/

@[simp] theorem putPins_params (s : State) (p : Pins) : (s.putPins p).params = s.params :=
  rfl

@[simp] theorem putPins_fsm (s : State) (p : Pins) : (s.putPins p).fsm = s.fsm :=
  rfl

@[simp] theorem putPins_phy (s : State) (p : Pins) : (s.putPins p).phy = s.phy :=
  rfl

@[simp] theorem putPins_writer (s : State) (p : Pins) : (s.putPins p).writer = s.writer :=
  rfl

@[simp] theorem putPins_reader (s : State) (p : Pins) : (s.putPins p).reader = s.reader :=
  rfl

@[simp] theorem putPins_queues (s : State) (p : Pins) : (s.putPins p).queues = s.queues :=
  rfl

@[simp] theorem putPins_crossings (s : State) (p : Pins) : (s.putPins p).crossings = s.crossings :=
  rfl

@[simp] theorem putPins_devMem (s : State) (p : Pins) : (s.putPins p).devMem = s.devMem :=
  rfl

@[simp] theorem putPins_out (s : State) (p : Pins) : (s.putPins p).out = s.out :=
  rfl

@[simp] theorem putPins_free (s : State) (p : Pins) : (s.putPins p).free = s.free :=
  rfl

@[simp] theorem putPins_tapMoved (s : State) (p : Pins) : (s.putPins p).tapMoved = s.tapMoved :=
  rfl

@[simp] theorem putPins_script (s : State) (p : Pins) : (s.putPins p).script = s.script :=
  rfl

@[simp] theorem putPins_inp_rst (s : State) (p : Pins) : (s.putPins p).inp.rst = s.inp.rst :=
  rfl

@[simp] theorem putPins_inp_grant (s : State) (p : Pins) : (s.putPins p).inp.grant = s.inp.grant :=
  rfl

@[simp] theorem putPins_inp_bus (s : State) (p : Pins) : (s.putPins p).inp.bus = s.inp.bus :=
  rfl

@[simp] theorem putPins_inp_pins (s : State) (p : Pins) : (s.putPins p).inp.pins = p :=
  rfl

@[simp] theorem putPins_inp_dly (s : State) (p : Pins) : (s.putPins p).inp.dly = s.inp.dly :=
  rfl

@[simp] theorem putPins_inp_writer (s : State) (p : Pins) : (s.putPins p).inp.writer = s.inp.writer :=
  rfl

@[simp] theorem putPins_inp_reader (s : State) (p : Pins) : (s.putPins p).inp.reader = s.inp.reader :=
  rfl

@[simp] theorem putPins_inp_queues (s : State) (p : Pins) : (s.putPins p).inp.queues = s.inp.queues :=
  rfl

@[simp] theorem putPins_inp_crossings (s : State) (p : Pins) : (s.putPins p).inp.crossings = s.inp.crossings :=
  rfl

/-! ### `putQueue` -/

@[simp] theorem putQueue_params (s : State) (q : Nat) (rst : Bool) (link : QueueLink) : (s.putQueue q rst link).params = s.params :=
  rfl

@[simp] theorem putQueue_fsm (s : State) (q : Nat) (rst : Bool) (link : QueueLink) : (s.putQueue q rst link).fsm = s.fsm :=
  rfl

@[simp] theorem putQueue_phy (s : State) (q : Nat) (rst : Bool) (link : QueueLink) : (s.putQueue q rst link).phy = s.phy :=
  rfl

@[simp] theorem putQueue_writer (s : State) (q : Nat) (rst : Bool) (link : QueueLink) : (s.putQueue q rst link).writer = s.writer :=
  rfl

@[simp] theorem putQueue_reader (s : State) (q : Nat) (rst : Bool) (link : QueueLink) : (s.putQueue q rst link).reader = s.reader :=
  rfl

@[simp] theorem putQueue_queues (s : State) (q : Nat) (rst : Bool) (link : QueueLink) : (s.putQueue q rst link).queues = s.queues :=
  rfl

@[simp] theorem putQueue_crossings (s : State) (q : Nat) (rst : Bool) (link : QueueLink) : (s.putQueue q rst link).crossings = s.crossings :=
  rfl

@[simp] theorem putQueue_devMem (s : State) (q : Nat) (rst : Bool) (link : QueueLink) : (s.putQueue q rst link).devMem = s.devMem :=
  rfl

@[simp] theorem putQueue_out (s : State) (q : Nat) (rst : Bool) (link : QueueLink) : (s.putQueue q rst link).out = s.out :=
  rfl

@[simp] theorem putQueue_free (s : State) (q : Nat) (rst : Bool) (link : QueueLink) : (s.putQueue q rst link).free = s.free :=
  rfl

@[simp] theorem putQueue_tapMoved (s : State) (q : Nat) (rst : Bool) (link : QueueLink) : (s.putQueue q rst link).tapMoved = s.tapMoved :=
  rfl

@[simp] theorem putQueue_script (s : State) (q : Nat) (rst : Bool) (link : QueueLink) : (s.putQueue q rst link).script = s.script :=
  rfl

@[simp] theorem putQueue_inp_rst (s : State) (q : Nat) (rst : Bool) (link : QueueLink) : (s.putQueue q rst link).inp.rst = s.inp.rst :=
  rfl

@[simp] theorem putQueue_inp_grant (s : State) (q : Nat) (rst : Bool) (link : QueueLink) : (s.putQueue q rst link).inp.grant = s.inp.grant :=
  rfl

@[simp] theorem putQueue_inp_bus (s : State) (q : Nat) (rst : Bool) (link : QueueLink) : (s.putQueue q rst link).inp.bus = s.inp.bus :=
  rfl

@[simp] theorem putQueue_inp_pins (s : State) (q : Nat) (rst : Bool) (link : QueueLink) : (s.putQueue q rst link).inp.pins = s.inp.pins :=
  rfl

@[simp] theorem putQueue_inp_dly (s : State) (q : Nat) (rst : Bool) (link : QueueLink) : (s.putQueue q rst link).inp.dly = s.inp.dly :=
  rfl

@[simp] theorem putQueue_inp_writer (s : State) (q : Nat) (rst : Bool) (link : QueueLink) : (s.putQueue q rst link).inp.writer = s.inp.writer :=
  rfl

@[simp] theorem putQueue_inp_reader (s : State) (q : Nat) (rst : Bool) (link : QueueLink) : (s.putQueue q rst link).inp.reader = s.inp.reader :=
  rfl

@[simp] theorem putQueue_inp_queues (s : State) (q : Nat) (rst : Bool) (link : QueueLink) : (s.putQueue q rst link).inp.queues = setAt QueueIn.idle s.inp.queues q { queueLines s q with rst := rst, link := link } :=
  rfl

@[simp] theorem putQueue_inp_crossings (s : State) (q : Nat) (rst : Bool) (link : QueueLink) : (s.putQueue q rst link).inp.crossings = s.inp.crossings :=
  rfl

/-! ### `putFarQueue` -/

@[simp] theorem putFarQueue_params (s : State) (q : Nat) (l : FarIn) : (s.putFarQueue q l).params = s.params :=
  rfl

@[simp] theorem putFarQueue_fsm (s : State) (q : Nat) (l : FarIn) : (s.putFarQueue q l).fsm = s.fsm :=
  rfl

@[simp] theorem putFarQueue_phy (s : State) (q : Nat) (l : FarIn) : (s.putFarQueue q l).phy = s.phy :=
  rfl

@[simp] theorem putFarQueue_writer (s : State) (q : Nat) (l : FarIn) : (s.putFarQueue q l).writer = s.writer :=
  rfl

@[simp] theorem putFarQueue_reader (s : State) (q : Nat) (l : FarIn) : (s.putFarQueue q l).reader = s.reader :=
  rfl

@[simp] theorem putFarQueue_queues (s : State) (q : Nat) (l : FarIn) : (s.putFarQueue q l).queues = s.queues :=
  rfl

@[simp] theorem putFarQueue_crossings (s : State) (q : Nat) (l : FarIn) : (s.putFarQueue q l).crossings = s.crossings :=
  rfl

@[simp] theorem putFarQueue_devMem (s : State) (q : Nat) (l : FarIn) : (s.putFarQueue q l).devMem = s.devMem :=
  rfl

@[simp] theorem putFarQueue_out (s : State) (q : Nat) (l : FarIn) : (s.putFarQueue q l).out = s.out :=
  rfl

@[simp] theorem putFarQueue_free (s : State) (q : Nat) (l : FarIn) : (s.putFarQueue q l).free = s.free :=
  rfl

@[simp] theorem putFarQueue_tapMoved (s : State) (q : Nat) (l : FarIn) : (s.putFarQueue q l).tapMoved = s.tapMoved :=
  rfl

@[simp] theorem putFarQueue_script (s : State) (q : Nat) (l : FarIn) : (s.putFarQueue q l).script = s.script :=
  rfl

@[simp] theorem putFarQueue_inp_rst (s : State) (q : Nat) (l : FarIn) : (s.putFarQueue q l).inp.rst = s.inp.rst :=
  rfl

@[simp] theorem putFarQueue_inp_grant (s : State) (q : Nat) (l : FarIn) : (s.putFarQueue q l).inp.grant = s.inp.grant :=
  rfl

@[simp] theorem putFarQueue_inp_bus (s : State) (q : Nat) (l : FarIn) : (s.putFarQueue q l).inp.bus = s.inp.bus :=
  rfl

@[simp] theorem putFarQueue_inp_pins (s : State) (q : Nat) (l : FarIn) : (s.putFarQueue q l).inp.pins = s.inp.pins :=
  rfl

@[simp] theorem putFarQueue_inp_dly (s : State) (q : Nat) (l : FarIn) : (s.putFarQueue q l).inp.dly = s.inp.dly :=
  rfl

@[simp] theorem putFarQueue_inp_writer (s : State) (q : Nat) (l : FarIn) : (s.putFarQueue q l).inp.writer = s.inp.writer :=
  rfl

@[simp] theorem putFarQueue_inp_reader (s : State) (q : Nat) (l : FarIn) : (s.putFarQueue q l).inp.reader = s.inp.reader :=
  rfl

@[simp] theorem putFarQueue_inp_queues (s : State) (q : Nat) (l : FarIn) : (s.putFarQueue q l).inp.queues = setAt QueueIn.idle s.inp.queues q { queueLines s q with far := l } :=
  rfl

@[simp] theorem putFarQueue_inp_crossings (s : State) (q : Nat) (l : FarIn) : (s.putFarQueue q l).inp.crossings = s.inp.crossings :=
  rfl

/-! ### `putFarPulse` -/

@[simp] theorem putFarPulse_params (s : State) (x : Nat) (pulse : Bool) : (s.putFarPulse x pulse).params = s.params :=
  rfl

@[simp] theorem putFarPulse_fsm (s : State) (x : Nat) (pulse : Bool) : (s.putFarPulse x pulse).fsm = s.fsm :=
  rfl

@[simp] theorem putFarPulse_phy (s : State) (x : Nat) (pulse : Bool) : (s.putFarPulse x pulse).phy = s.phy :=
  rfl

@[simp] theorem putFarPulse_writer (s : State) (x : Nat) (pulse : Bool) : (s.putFarPulse x pulse).writer = s.writer :=
  rfl

@[simp] theorem putFarPulse_reader (s : State) (x : Nat) (pulse : Bool) : (s.putFarPulse x pulse).reader = s.reader :=
  rfl

@[simp] theorem putFarPulse_queues (s : State) (x : Nat) (pulse : Bool) : (s.putFarPulse x pulse).queues = s.queues :=
  rfl

@[simp] theorem putFarPulse_crossings (s : State) (x : Nat) (pulse : Bool) : (s.putFarPulse x pulse).crossings = s.crossings :=
  rfl

@[simp] theorem putFarPulse_devMem (s : State) (x : Nat) (pulse : Bool) : (s.putFarPulse x pulse).devMem = s.devMem :=
  rfl

@[simp] theorem putFarPulse_out (s : State) (x : Nat) (pulse : Bool) : (s.putFarPulse x pulse).out = s.out :=
  rfl

@[simp] theorem putFarPulse_free (s : State) (x : Nat) (pulse : Bool) : (s.putFarPulse x pulse).free = s.free :=
  rfl

@[simp] theorem putFarPulse_tapMoved (s : State) (x : Nat) (pulse : Bool) : (s.putFarPulse x pulse).tapMoved = s.tapMoved :=
  rfl

@[simp] theorem putFarPulse_script (s : State) (x : Nat) (pulse : Bool) : (s.putFarPulse x pulse).script = s.script :=
  rfl

@[simp] theorem putFarPulse_inp_rst (s : State) (x : Nat) (pulse : Bool) : (s.putFarPulse x pulse).inp.rst = s.inp.rst :=
  rfl

@[simp] theorem putFarPulse_inp_grant (s : State) (x : Nat) (pulse : Bool) : (s.putFarPulse x pulse).inp.grant = s.inp.grant :=
  rfl

@[simp] theorem putFarPulse_inp_bus (s : State) (x : Nat) (pulse : Bool) : (s.putFarPulse x pulse).inp.bus = s.inp.bus :=
  rfl

@[simp] theorem putFarPulse_inp_pins (s : State) (x : Nat) (pulse : Bool) : (s.putFarPulse x pulse).inp.pins = s.inp.pins :=
  rfl

@[simp] theorem putFarPulse_inp_dly (s : State) (x : Nat) (pulse : Bool) : (s.putFarPulse x pulse).inp.dly = s.inp.dly :=
  rfl

@[simp] theorem putFarPulse_inp_writer (s : State) (x : Nat) (pulse : Bool) : (s.putFarPulse x pulse).inp.writer = s.inp.writer :=
  rfl

@[simp] theorem putFarPulse_inp_reader (s : State) (x : Nat) (pulse : Bool) : (s.putFarPulse x pulse).inp.reader = s.inp.reader :=
  rfl

@[simp] theorem putFarPulse_inp_queues (s : State) (x : Nat) (pulse : Bool) : (s.putFarPulse x pulse).inp.queues = s.inp.queues :=
  rfl

@[simp] theorem putFarPulse_inp_crossings (s : State) (x : Nat) (pulse : Bool) : (s.putFarPulse x pulse).inp.crossings = setAt CrossIn.idle s.inp.crossings x { crossLines s x with farPulse := pulse } :=
  rfl

/-! ### `putPulse` -/

@[simp] theorem putPulse_params (s : State) (x : Nat) (pulse : Bool) : (s.putPulse x pulse).params = s.params :=
  rfl

@[simp] theorem putPulse_fsm (s : State) (x : Nat) (pulse : Bool) : (s.putPulse x pulse).fsm = s.fsm :=
  rfl

@[simp] theorem putPulse_phy (s : State) (x : Nat) (pulse : Bool) : (s.putPulse x pulse).phy = s.phy :=
  rfl

@[simp] theorem putPulse_writer (s : State) (x : Nat) (pulse : Bool) : (s.putPulse x pulse).writer = s.writer :=
  rfl

@[simp] theorem putPulse_reader (s : State) (x : Nat) (pulse : Bool) : (s.putPulse x pulse).reader = s.reader :=
  rfl

@[simp] theorem putPulse_queues (s : State) (x : Nat) (pulse : Bool) : (s.putPulse x pulse).queues = s.queues :=
  rfl

@[simp] theorem putPulse_crossings (s : State) (x : Nat) (pulse : Bool) : (s.putPulse x pulse).crossings = s.crossings :=
  rfl

@[simp] theorem putPulse_devMem (s : State) (x : Nat) (pulse : Bool) : (s.putPulse x pulse).devMem = s.devMem :=
  rfl

@[simp] theorem putPulse_out (s : State) (x : Nat) (pulse : Bool) : (s.putPulse x pulse).out = s.out :=
  rfl

@[simp] theorem putPulse_free (s : State) (x : Nat) (pulse : Bool) : (s.putPulse x pulse).free = s.free :=
  rfl

@[simp] theorem putPulse_tapMoved (s : State) (x : Nat) (pulse : Bool) : (s.putPulse x pulse).tapMoved = s.tapMoved :=
  rfl

@[simp] theorem putPulse_script (s : State) (x : Nat) (pulse : Bool) : (s.putPulse x pulse).script = s.script :=
  rfl

@[simp] theorem putPulse_inp_rst (s : State) (x : Nat) (pulse : Bool) : (s.putPulse x pulse).inp.rst = s.inp.rst :=
  rfl

@[simp] theorem putPulse_inp_grant (s : State) (x : Nat) (pulse : Bool) : (s.putPulse x pulse).inp.grant = s.inp.grant :=
  rfl

@[simp] theorem putPulse_inp_bus (s : State) (x : Nat) (pulse : Bool) : (s.putPulse x pulse).inp.bus = s.inp.bus :=
  rfl

@[simp] theorem putPulse_inp_pins (s : State) (x : Nat) (pulse : Bool) : (s.putPulse x pulse).inp.pins = s.inp.pins :=
  rfl

@[simp] theorem putPulse_inp_dly (s : State) (x : Nat) (pulse : Bool) : (s.putPulse x pulse).inp.dly = s.inp.dly :=
  rfl

@[simp] theorem putPulse_inp_writer (s : State) (x : Nat) (pulse : Bool) : (s.putPulse x pulse).inp.writer = s.inp.writer :=
  rfl

@[simp] theorem putPulse_inp_reader (s : State) (x : Nat) (pulse : Bool) : (s.putPulse x pulse).inp.reader = s.inp.reader :=
  rfl

@[simp] theorem putPulse_inp_queues (s : State) (x : Nat) (pulse : Bool) : (s.putPulse x pulse).inp.queues = s.inp.queues :=
  rfl

@[simp] theorem putPulse_inp_crossings (s : State) (x : Nat) (pulse : Bool) : (s.putPulse x pulse).inp.crossings = setAt CrossIn.idle s.inp.crossings x { crossLines s x with pulse := pulse } :=
  rfl

/-! ### `putReset` -/

@[simp] theorem putReset_params (s : State) : s.putReset.params = s.params :=
  rfl

@[simp] theorem putReset_fsm (s : State) : s.putReset.fsm = s.fsm :=
  rfl

@[simp] theorem putReset_phy (s : State) : s.putReset.phy = s.phy :=
  rfl

@[simp] theorem putReset_writer (s : State) : s.putReset.writer = s.writer :=
  rfl

@[simp] theorem putReset_reader (s : State) : s.putReset.reader = s.reader :=
  rfl

@[simp] theorem putReset_queues (s : State) : s.putReset.queues = s.queues :=
  rfl

@[simp] theorem putReset_crossings (s : State) : s.putReset.crossings = s.crossings :=
  rfl

@[simp] theorem putReset_devMem (s : State) : s.putReset.devMem = s.devMem :=
  rfl

@[simp] theorem putReset_out (s : State) : s.putReset.out = s.out :=
  rfl

@[simp] theorem putReset_free (s : State) : s.putReset.free = s.free :=
  rfl

@[simp] theorem putReset_tapMoved (s : State) : s.putReset.tapMoved = s.tapMoved :=
  rfl

@[simp] theorem putReset_script (s : State) : s.putReset.script = s.script :=
  rfl

@[simp] theorem putReset_inp_rst (s : State) : s.putReset.inp.rst = true :=
  rfl

@[simp] theorem putReset_inp_grant (s : State) : s.putReset.inp.grant = s.inp.grant :=
  rfl

@[simp] theorem putReset_inp_bus (s : State) : s.putReset.inp.bus = s.inp.bus :=
  rfl

@[simp] theorem putReset_inp_pins (s : State) : s.putReset.inp.pins = s.inp.pins :=
  rfl

@[simp] theorem putReset_inp_dly (s : State) : s.putReset.inp.dly = s.inp.dly :=
  rfl

@[simp] theorem putReset_inp_writer (s : State) : s.putReset.inp.writer = s.inp.writer :=
  rfl

@[simp] theorem putReset_inp_reader (s : State) : s.putReset.inp.reader = s.inp.reader :=
  rfl

@[simp] theorem putReset_inp_queues (s : State) : s.putReset.inp.queues = s.inp.queues :=
  rfl

@[simp] theorem putReset_inp_crossings (s : State) : s.putReset.inp.crossings = s.inp.crossings :=
  rfl

/-! ### `domainTick` -/

@[simp] theorem domainTick_params (d : Domain) (s : State) : (domainTick d s).params = s.params :=
  rfl

@[simp] theorem domainTick_fsm (d : Domain) (s : State) : (domainTick d s).fsm = s.fsm :=
  rfl

@[simp] theorem domainTick_phy (d : Domain) (s : State) : (domainTick d s).phy = s.phy :=
  rfl

@[simp] theorem domainTick_writer (d : Domain) (s : State) : (domainTick d s).writer = s.writer :=
  rfl

@[simp] theorem domainTick_reader (d : Domain) (s : State) : (domainTick d s).reader = s.reader :=
  rfl

@[simp] theorem domainTick_queues (d : Domain) (s : State) : (domainTick d s).queues = queuesFarTick d s 0 s.queues :=
  rfl

@[simp] theorem domainTick_crossings (d : Domain) (s : State) : (domainTick d s).crossings = crossingsFarTick d s 0 s.crossings :=
  rfl

@[simp] theorem domainTick_devMem (d : Domain) (s : State) : (domainTick d s).devMem = s.devMem :=
  rfl

@[simp] theorem domainTick_out (d : Domain) (s : State) : (domainTick d s).out = s.out :=
  rfl

@[simp] theorem domainTick_free (d : Domain) (s : State) : (domainTick d s).free = s.free :=
  rfl

@[simp] theorem domainTick_tapMoved (d : Domain) (s : State) : (domainTick d s).tapMoved = s.tapMoved :=
  rfl

@[simp] theorem domainTick_script (d : Domain) (s : State) : (domainTick d s).script = s.script :=
  rfl

@[simp] theorem domainTick_inp (d : Domain) (s : State) : (domainTick d s).inp = s.settleFar d :=
  rfl

@[simp] theorem settleFar_rst (d : Domain) (s : State) : (s.settleFar d).rst = s.inp.rst :=
  rfl

@[simp] theorem settleFar_grant (d : Domain) (s : State) : (s.settleFar d).grant = s.inp.grant :=
  rfl

@[simp] theorem settleFar_bus (d : Domain) (s : State) : (s.settleFar d).bus = s.inp.bus :=
  rfl

@[simp] theorem settleFar_pins (d : Domain) (s : State) : (s.settleFar d).pins = s.inp.pins :=
  rfl

@[simp] theorem settleFar_dly (d : Domain) (s : State) : (s.settleFar d).dly = s.inp.dly :=
  rfl

@[simp] theorem settleFar_writer (d : Domain) (s : State) : (s.settleFar d).writer = s.inp.writer :=
  rfl

@[simp] theorem settleFar_reader (d : Domain) (s : State) : (s.settleFar d).reader = s.inp.reader :=
  rfl

/-! ### `setFsmState`, `setEst` -/

@[simp] theorem setFsmState_params (s : State) (x : FsmState) : (s.setFsmState x).params = s.params :=
  rfl

@[simp] theorem setFsmState_phy (s : State) (x : FsmState) : (s.setFsmState x).phy = s.phy :=
  rfl

@[simp] theorem setFsmState_writer (s : State) (x : FsmState) : (s.setFsmState x).writer = s.writer :=
  rfl

@[simp] theorem setFsmState_reader (s : State) (x : FsmState) : (s.setFsmState x).reader = s.reader :=
  rfl

@[simp] theorem setFsmState_queues (s : State) (x : FsmState) : (s.setFsmState x).queues = s.queues :=
  rfl

@[simp] theorem setFsmState_crossings (s : State) (x : FsmState) : (s.setFsmState x).crossings = s.crossings :=
  rfl

@[simp] theorem setFsmState_devMem (s : State) (x : FsmState) : (s.setFsmState x).devMem = s.devMem :=
  rfl

@[simp] theorem setFsmState_out (s : State) (x : FsmState) : (s.setFsmState x).out = s.out :=
  rfl

@[simp] theorem setFsmState_free (s : State) (x : FsmState) : (s.setFsmState x).free = s.free :=
  rfl

@[simp] theorem setFsmState_tapMoved (s : State) (x : FsmState) : (s.setFsmState x).tapMoved = s.tapMoved :=
  rfl

@[simp] theorem setFsmState_script (s : State) (x : FsmState) : (s.setFsmState x).script = s.script :=
  rfl

@[simp] theorem setFsmState_inp (s : State) (x : FsmState) : (s.setFsmState x).inp = s.inp :=
  rfl

@[simp] theorem setFsmState_fsm (s : State) (x : FsmState) : (s.setFsmState x).fsm = { s.fsm with state := x } :=
  rfl

/-- Setting the state register to what it holds changes nothing. -/
theorem setFsmState_same (s : State) (x : FsmState) (h : s.fsm.state = x) : s.setFsmState x = s := by
  subst h; rfl

@[simp] theorem setEst_params (s : State) (e : EngineId) (x : EngState) : (s.setEst e x).params = s.params :=
  by cases e <;> rfl

@[simp] theorem setEst_fsm (s : State) (e : EngineId) (x : EngState) : (s.setEst e x).fsm = s.fsm :=
  by cases e <;> rfl

@[simp] theorem setEst_phy (s : State) (e : EngineId) (x : EngState) : (s.setEst e x).phy = s.phy :=
  by cases e <;> rfl

@[simp] theorem setEst_queues (s : State) (e : EngineId) (x : EngState) : (s.setEst e x).queues = s.queues :=
  by cases e <;> rfl

@[simp] theorem setEst_crossings (s : State) (e : EngineId) (x : EngState) : (s.setEst e x).crossings = s.crossings :=
  by cases e <;> rfl

@[simp] theorem setEst_devMem (s : State) (e : EngineId) (x : EngState) : (s.setEst e x).devMem = s.devMem :=
  by cases e <;> rfl

@[simp] theorem setEst_out (s : State) (e : EngineId) (x : EngState) : (s.setEst e x).out = s.out :=
  by cases e <;> rfl

@[simp] theorem setEst_free (s : State) (e : EngineId) (x : EngState) : (s.setEst e x).free = s.free :=
  by cases e <;> rfl

@[simp] theorem setEst_tapMoved (s : State) (e : EngineId) (x : EngState) : (s.setEst e x).tapMoved = s.tapMoved :=
  by cases e <;> rfl

@[simp] theorem setEst_script (s : State) (e : EngineId) (x : EngState) : (s.setEst e x).script = s.script :=
  by cases e <;> rfl

@[simp] theorem setEst_inp (s : State) (e : EngineId) (x : EngState) : (s.setEst e x).inp = s.inp :=
  by cases e <;> rfl

@[simp] theorem setEst_engine (s : State) (e : EngineId) (x : EngState) : (s.setEst e x).engine e = { s.engine e with est := x } :=
  by cases e <;> rfl

/-- Setting an engine's state register to what it holds changes nothing. -/
theorem setEst_same (s : State) (e : EngineId) (x : EngState) (h : (s.engine e).est = x) : s.setEst e x = s := by
  subst h; cases e <;> rfl

/-! ### `enterState` -/

@[simp] theorem enterState_state (x : FsmState) (f : Fsm) : (enterState x f).state = x :=
  rfl

@[simp] theorem enterState_cs (x : FsmState) (f : Fsm) : (enterState x f).cs = f.cs :=
  rfl

@[simp] theorem enterState_clkEn (x : FsmState) (f : Fsm) : (enterState x f).clkEn = f.clkEn :=
  rfl

@[simp] theorem enterState_dqOe (x : FsmState) (f : Fsm) : (enterState x f).dqOe = f.dqOe :=
  rfl

@[simp] theorem enterState_rwdsOe (x : FsmState) (f : Fsm) : (enterState x f).rwdsOe = f.rwdsOe :=
  rfl

@[simp] theorem enterState_ca (x : FsmState) (f : Fsm) : (enterState x f).ca = f.ca :=
  rfl

@[simp] theorem enterState_phaseCnt (x : FsmState) (f : Fsm) : (enterState x f).phaseCnt = 0 :=
  rfl

@[simp] theorem enterState_burstCnt (x : FsmState) (f : Fsm) : (enterState x f).burstCnt = f.burstCnt :=
  rfl

@[simp] theorem enterState_contHint (x : FsmState) (f : Fsm) : (enterState x f).contHint = f.contHint :=
  rfl

@[simp] theorem enterState_readData (x : FsmState) (f : Fsm) : (enterState x f).readData = f.readData :=
  rfl

@[simp] theorem enterState_strobeLast (x : FsmState) (f : Fsm) : (enterState x f).strobeLast = f.strobeLast :=
  rfl

@[simp] theorem enterState_devRst (x : FsmState) (f : Fsm) : (enterState x f).devRst = f.devRst :=
  rfl

/-! ### `stayCounting` -/

@[simp] theorem stayCounting_state (f : Fsm) : (stayCounting f).state = f.state :=
  rfl

@[simp] theorem stayCounting_cs (f : Fsm) : (stayCounting f).cs = f.cs :=
  rfl

@[simp] theorem stayCounting_clkEn (f : Fsm) : (stayCounting f).clkEn = f.clkEn :=
  rfl

@[simp] theorem stayCounting_dqOe (f : Fsm) : (stayCounting f).dqOe = f.dqOe :=
  rfl

@[simp] theorem stayCounting_rwdsOe (f : Fsm) : (stayCounting f).rwdsOe = f.rwdsOe :=
  rfl

@[simp] theorem stayCounting_ca (f : Fsm) : (stayCounting f).ca = f.ca :=
  rfl

@[simp] theorem stayCounting_phaseCnt (f : Fsm) : (stayCounting f).phaseCnt = f.phaseCnt + 1 :=
  rfl

@[simp] theorem stayCounting_burstCnt (f : Fsm) : (stayCounting f).burstCnt = f.burstCnt :=
  rfl

@[simp] theorem stayCounting_contHint (f : Fsm) : (stayCounting f).contHint = f.contHint :=
  rfl

@[simp] theorem stayCounting_readData (f : Fsm) : (stayCounting f).readData = f.readData :=
  rfl

@[simp] theorem stayCounting_strobeLast (f : Fsm) : (stayCounting f).strobeLast = f.strobeLast :=
  rfl

@[simp] theorem stayCounting_devRst (f : Fsm) : (stayCounting f).devRst = f.devRst :=
  rfl

/-! ### `countWord` -/

@[simp] theorem countWord_state (f : Fsm) : (countWord f).state = f.state :=
  rfl

@[simp] theorem countWord_cs (f : Fsm) : (countWord f).cs = f.cs :=
  rfl

@[simp] theorem countWord_clkEn (f : Fsm) : (countWord f).clkEn = f.clkEn :=
  rfl

@[simp] theorem countWord_dqOe (f : Fsm) : (countWord f).dqOe = f.dqOe :=
  rfl

@[simp] theorem countWord_rwdsOe (f : Fsm) : (countWord f).rwdsOe = f.rwdsOe :=
  rfl

@[simp] theorem countWord_ca (f : Fsm) : (countWord f).ca = f.ca :=
  rfl

@[simp] theorem countWord_phaseCnt (f : Fsm) : (countWord f).phaseCnt = f.phaseCnt :=
  rfl

@[simp] theorem countWord_burstCnt (f : Fsm) : (countWord f).burstCnt = f.burstCnt + 1 :=
  rfl

@[simp] theorem countWord_contHint (f : Fsm) : (countWord f).contHint = f.contHint :=
  rfl

@[simp] theorem countWord_readData (f : Fsm) : (countWord f).readData = f.readData :=
  rfl

@[simp] theorem countWord_strobeLast (f : Fsm) : (countWord f).strobeLast = f.strobeLast :=
  rfl

@[simp] theorem countWord_devRst (f : Fsm) : (countWord f).devRst = f.devRst :=
  rfl

/-! ### `clearWindow` -/

@[simp] theorem clearWindow_state (f : Fsm) : (clearWindow f).state = f.state :=
  rfl

@[simp] theorem clearWindow_cs (f : Fsm) : (clearWindow f).cs = f.cs :=
  rfl

@[simp] theorem clearWindow_clkEn (f : Fsm) : (clearWindow f).clkEn = f.clkEn :=
  rfl

@[simp] theorem clearWindow_dqOe (f : Fsm) : (clearWindow f).dqOe = f.dqOe :=
  rfl

@[simp] theorem clearWindow_rwdsOe (f : Fsm) : (clearWindow f).rwdsOe = f.rwdsOe :=
  rfl

@[simp] theorem clearWindow_ca (f : Fsm) : (clearWindow f).ca = f.ca :=
  rfl

@[simp] theorem clearWindow_phaseCnt (f : Fsm) : (clearWindow f).phaseCnt = f.phaseCnt :=
  rfl

@[simp] theorem clearWindow_burstCnt (f : Fsm) : (clearWindow f).burstCnt = 0 :=
  rfl

@[simp] theorem clearWindow_contHint (f : Fsm) : (clearWindow f).contHint = false :=
  rfl

@[simp] theorem clearWindow_readData (f : Fsm) : (clearWindow f).readData = f.readData :=
  rfl

@[simp] theorem clearWindow_strobeLast (f : Fsm) : (clearWindow f).strobeLast = f.strobeLast :=
  rfl

@[simp] theorem clearWindow_devRst (f : Fsm) : (clearWindow f).devRst = f.devRst :=
  rfl

/-! ### `closeWindow` -/

@[simp] theorem closeWindow_state (f : Fsm) : (closeWindow f).state = .idle :=
  rfl

@[simp] theorem closeWindow_cs (f : Fsm) : (closeWindow f).cs = false :=
  rfl

@[simp] theorem closeWindow_clkEn (f : Fsm) : (closeWindow f).clkEn = false :=
  rfl

@[simp] theorem closeWindow_dqOe (f : Fsm) : (closeWindow f).dqOe = false :=
  rfl

@[simp] theorem closeWindow_rwdsOe (f : Fsm) : (closeWindow f).rwdsOe = false :=
  rfl

@[simp] theorem closeWindow_ca (f : Fsm) : (closeWindow f).ca = f.ca :=
  rfl

@[simp] theorem closeWindow_phaseCnt (f : Fsm) : (closeWindow f).phaseCnt = 0 :=
  rfl

@[simp] theorem closeWindow_burstCnt (f : Fsm) : (closeWindow f).burstCnt = 0 :=
  rfl

@[simp] theorem closeWindow_contHint (f : Fsm) : (closeWindow f).contHint = false :=
  rfl

@[simp] theorem closeWindow_readData (f : Fsm) : (closeWindow f).readData = f.readData :=
  rfl

@[simp] theorem closeWindow_strobeLast (f : Fsm) : (closeWindow f).strobeLast = f.strobeLast :=
  rfl

@[simp] theorem closeWindow_devRst (f : Fsm) : (closeWindow f).devRst = f.devRst :=
  rfl

/-! ### `takeTimeout` -/

@[simp] theorem takeTimeout_state (f : Fsm) : (takeTimeout f).state = .timeout :=
  rfl

@[simp] theorem takeTimeout_cs (f : Fsm) : (takeTimeout f).cs = f.cs :=
  rfl

@[simp] theorem takeTimeout_clkEn (f : Fsm) : (takeTimeout f).clkEn = f.clkEn :=
  rfl

@[simp] theorem takeTimeout_dqOe (f : Fsm) : (takeTimeout f).dqOe = f.dqOe :=
  rfl

@[simp] theorem takeTimeout_rwdsOe (f : Fsm) : (takeTimeout f).rwdsOe = f.rwdsOe :=
  rfl

@[simp] theorem takeTimeout_ca (f : Fsm) : (takeTimeout f).ca = f.ca :=
  rfl

@[simp] theorem takeTimeout_phaseCnt (f : Fsm) : (takeTimeout f).phaseCnt = 0 :=
  rfl

@[simp] theorem takeTimeout_burstCnt (f : Fsm) : (takeTimeout f).burstCnt = f.burstCnt :=
  rfl

@[simp] theorem takeTimeout_contHint (f : Fsm) : (takeTimeout f).contHint = f.contHint :=
  rfl

@[simp] theorem takeTimeout_readData (f : Fsm) : (takeTimeout f).readData = f.readData :=
  rfl

@[simp] theorem takeTimeout_strobeLast (f : Fsm) : (takeTimeout f).strobeLast = f.strobeLast :=
  rfl

@[simp] theorem takeTimeout_devRst (f : Fsm) : (takeTimeout f).devRst = f.devRst :=
  rfl

/-! ### `leaveTimeout` -/

@[simp] theorem leaveTimeout_state (f : Fsm) : (leaveTimeout f).state = .cleanup :=
  rfl

@[simp] theorem leaveTimeout_cs (f : Fsm) : (leaveTimeout f).cs = f.cs :=
  rfl

@[simp] theorem leaveTimeout_clkEn (f : Fsm) : (leaveTimeout f).clkEn = f.clkEn :=
  rfl

@[simp] theorem leaveTimeout_dqOe (f : Fsm) : (leaveTimeout f).dqOe = f.dqOe :=
  rfl

@[simp] theorem leaveTimeout_rwdsOe (f : Fsm) : (leaveTimeout f).rwdsOe = f.rwdsOe :=
  rfl

@[simp] theorem leaveTimeout_ca (f : Fsm) : (leaveTimeout f).ca = f.ca :=
  rfl

@[simp] theorem leaveTimeout_phaseCnt (f : Fsm) : (leaveTimeout f).phaseCnt = 0 :=
  rfl

@[simp] theorem leaveTimeout_burstCnt (f : Fsm) : (leaveTimeout f).burstCnt = f.burstCnt :=
  rfl

@[simp] theorem leaveTimeout_contHint (f : Fsm) : (leaveTimeout f).contHint = f.contHint :=
  rfl

@[simp] theorem leaveTimeout_readData (f : Fsm) : (leaveTimeout f).readData = f.readData :=
  rfl

@[simp] theorem leaveTimeout_strobeLast (f : Fsm) : (leaveTimeout f).strobeLast = f.strobeLast :=
  rfl

@[simp] theorem leaveTimeout_devRst (f : Fsm) : (leaveTimeout f).devRst = f.devRst :=
  rfl

/-! ### `captureWord` -/

@[simp] theorem captureWord_state (p : Phy) (f : Fsm) : (captureWord p f).state = .readAck :=
  rfl

@[simp] theorem captureWord_cs (p : Phy) (f : Fsm) : (captureWord p f).cs = f.cs :=
  rfl

@[simp] theorem captureWord_clkEn (p : Phy) (f : Fsm) : (captureWord p f).clkEn = f.clkEn :=
  rfl

@[simp] theorem captureWord_dqOe (p : Phy) (f : Fsm) : (captureWord p f).dqOe = f.dqOe :=
  rfl

@[simp] theorem captureWord_rwdsOe (p : Phy) (f : Fsm) : (captureWord p f).rwdsOe = f.rwdsOe :=
  rfl

@[simp] theorem captureWord_ca (p : Phy) (f : Fsm) : (captureWord p f).ca = f.ca :=
  rfl

@[simp] theorem captureWord_phaseCnt (p : Phy) (f : Fsm) : (captureWord p f).phaseCnt = 0 :=
  rfl

@[simp] theorem captureWord_burstCnt (p : Phy) (f : Fsm) : (captureWord p f).burstCnt = f.burstCnt :=
  rfl

@[simp] theorem captureWord_contHint (p : Phy) (f : Fsm) : (captureWord p f).contHint = f.contHint :=
  rfl

@[simp] theorem captureWord_readData (p : Phy) (f : Fsm) : (captureWord p f).readData = p.rxWord :=
  rfl

@[simp] theorem captureWord_strobeLast (p : Phy) (f : Fsm) : (captureWord p f).strobeLast = f.strobeLast :=
  rfl

@[simp] theorem captureWord_devRst (p : Phy) (f : Fsm) : (captureWord p f).devRst = f.devRst :=
  rfl

/-! ### `everyTick` -/

@[simp] theorem everyTick_state (x : Phy) (f : Fsm) : (everyTick x f).state = f.state :=
  rfl

@[simp] theorem everyTick_cs (x : Phy) (f : Fsm) : (everyTick x f).cs = f.cs :=
  rfl

@[simp] theorem everyTick_clkEn (x : Phy) (f : Fsm) : (everyTick x f).clkEn = f.clkEn :=
  rfl

@[simp] theorem everyTick_dqOe (x : Phy) (f : Fsm) : (everyTick x f).dqOe = f.dqOe :=
  rfl

@[simp] theorem everyTick_rwdsOe (x : Phy) (f : Fsm) : (everyTick x f).rwdsOe = f.rwdsOe :=
  rfl

@[simp] theorem everyTick_ca (x : Phy) (f : Fsm) : (everyTick x f).ca = f.ca :=
  rfl

@[simp] theorem everyTick_phaseCnt (x : Phy) (f : Fsm) : (everyTick x f).phaseCnt = f.phaseCnt :=
  rfl

@[simp] theorem everyTick_burstCnt (x : Phy) (f : Fsm) : (everyTick x f).burstCnt = f.burstCnt :=
  rfl

@[simp] theorem everyTick_contHint (x : Phy) (f : Fsm) : (everyTick x f).contHint = f.contHint :=
  rfl

@[simp] theorem everyTick_readData (x : Phy) (f : Fsm) : (everyTick x f).readData = f.readData :=
  rfl

@[simp] theorem everyTick_strobeLast (x : Phy) (f : Fsm) : (everyTick x f).strobeLast = x.rxStrobe.getLsbD 0 :=
  rfl

@[simp] theorem everyTick_devRst (x : Phy) (f : Fsm) : (everyTick x f).devRst = false :=
  rfl

/-! ### `phyShiftOut`, `phyQueueIdle`, `phySample` -/

@[simp] theorem phyShiftOut_txWord (c : ShiftCall) (p : Phy) : (phyShiftOut c p).txWord = c.word :=
  rfl

@[simp] theorem phyShiftOut_txMask (c : ShiftCall) (p : Phy) : (phyShiftOut c p).txMask = c.mask :=
  rfl

@[simp] theorem phyShiftOut_txValid (c : ShiftCall) (p : Phy) : (phyShiftOut c p).txValid = true :=
  rfl

@[simp] theorem phyShiftOut_rxWord (c : ShiftCall) (p : Phy) : (phyShiftOut c p).rxWord = p.rxWord :=
  rfl

@[simp] theorem phyShiftOut_rxStrobe (c : ShiftCall) (p : Phy) : (phyShiftOut c p).rxStrobe = p.rxStrobe :=
  rfl

@[simp] theorem phyShiftOut_rxHalf0 (c : ShiftCall) (p : Phy) : (phyShiftOut c p).rxHalf0 = p.rxHalf0 :=
  rfl

@[simp] theorem phyShiftOut_delayTap (c : ShiftCall) (p : Phy) : (phyShiftOut c p).delayTap = p.delayTap :=
  rfl

@[simp] theorem phyQueueIdle_txWord (p : Phy) : (phyQueueIdle p).txWord = 0 :=
  rfl

@[simp] theorem phyQueueIdle_txMask (p : Phy) : (phyQueueIdle p).txMask = 0b1111 :=
  rfl

@[simp] theorem phyQueueIdle_txValid (p : Phy) : (phyQueueIdle p).txValid = false :=
  rfl

@[simp] theorem phyQueueIdle_rxWord (p : Phy) : (phyQueueIdle p).rxWord = p.rxWord :=
  rfl

@[simp] theorem phyQueueIdle_rxStrobe (p : Phy) : (phyQueueIdle p).rxStrobe = p.rxStrobe :=
  rfl

@[simp] theorem phyQueueIdle_rxHalf0 (p : Phy) : (phyQueueIdle p).rxHalf0 = p.rxHalf0 :=
  rfl

@[simp] theorem phyQueueIdle_delayTap (p : Phy) : (phyQueueIdle p).delayTap = p.delayTap :=
  rfl

@[simp] theorem phySample_txWord (pins : Pins) (p : Phy) : (phySample pins p).txWord = p.txWord :=
  rfl

@[simp] theorem phySample_txMask (pins : Pins) (p : Phy) : (phySample pins p).txMask = p.txMask :=
  rfl

@[simp] theorem phySample_txValid (pins : Pins) (p : Phy) : (phySample pins p).txValid = p.txValid :=
  rfl

@[simp] theorem phySample_rxWord (pins : Pins) (p : Phy) : (phySample pins p).rxWord = pinsWord pins :=
  rfl

@[simp] theorem phySample_rxStrobe (pins : Pins) (p : Phy) : (phySample pins p).rxStrobe = pinsStrobe pins :=
  rfl

@[simp] theorem phySample_rxHalf0 (pins : Pins) (p : Phy) : (phySample pins p).rxHalf0 = pinsHalf0 pins :=
  rfl

@[simp] theorem phySample_delayTap (pins : Pins) (p : Phy) : (phySample pins p).delayTap = p.delayTap :=
  rfl

end Sys2Proof.Machine
end

