-- ==== Sys2Proof/Laws/Storage.lean ====
section
/-! SUPPORT. Storage lists: reading after writing, the canonical form kept by every operation; the device's byte
addresses; lists of lines. -/

namespace Sys2Proof.Machine

/-! ### Reading after writing -/

/-- A read at the written address gives the written value. -/
@[simp] theorem cellRead_cellWrite_same {α : Type} (m : List (Nat × α)) (a : Nat) (v : α) :
    cellRead (cellWrite m a v) a = some v := by
  induction m with
  | nil => simp [cellWrite, cellRead]
  | cons c rest ih =>
    obtain ⟨k, w⟩ := c
    simp only [cellWrite]
    split
    · simp [cellRead]
    · split
      · simp [cellRead]
      · rename_i h1 h2
        simp [cellRead, Ne.symm h2, ih]

/-- A read elsewhere gives what it gave before. -/
theorem cellRead_cellWrite_ne {α : Type} (m : List (Nat × α)) (a b : Nat) (v : α) (h : b ≠ a) :
    cellRead (cellWrite m a v) b = cellRead m b := by
  induction m with
  | nil => simp [cellWrite, cellRead, Ne.symm h]
  | cons c rest ih =>
    obtain ⟨k, w⟩ := c
    simp only [cellWrite]
    split
    · simp [cellRead, Ne.symm h]
    · split
      · rename_i h1 h2
        subst h2
        simp [cellRead, Ne.symm h]
      · simp [cellRead, ih]

/-- Everything `cellWrite` can do to a read. -/
theorem cellRead_cellWrite {α : Type} (m : List (Nat × α)) (a b : Nat) (v : α) :
    cellRead (cellWrite m a v) b = if b = a then some v else cellRead m b := by
  by_cases h : b = a
  · subst h; simp
  · simp [h, cellRead_cellWrite_ne m a b v h]

/-! ### The canonical form -/

theorem cellsAbove_cellWrite {α : Type} (m : List (Nat × α)) (low a : Nat) (v : α) (hm : cellsAbove low m = true)
    (ha : low < a) : cellsAbove low (cellWrite m a v) = true := by
  induction m generalizing low with
  | nil => simp [cellWrite, cellsAbove, ha]
  | cons c rest ih =>
    obtain ⟨k, w⟩ := c
    simp only [cellsAbove, Bool.and_eq_true, decide_eq_true_eq] at hm
    obtain ⟨h1, h2⟩ := hm
    simp only [cellWrite]
    split
    · simp [cellsAbove, *]
    · split
      · rename_i h3 h4
        subst h4
        simp [cellsAbove, *]
      · simp [cellsAbove, h1, ih k h2 (by omega)]

/-- A write keeps the canonical form. -/
theorem cellsWf_cellWrite {α : Type} (m : List (Nat × α)) (a : Nat) (v : α) (hm : cellsWf m = true) :
    cellsWf (cellWrite m a v) = true := by
  cases m with
  | nil => rfl
  | cons c rest =>
    obtain ⟨k, w⟩ := c
    simp only [cellsWf] at hm
    simp only [cellWrite]
    split
    · simp [cellsWf, cellsAbove, *]
    · split
      · rename_i h1 h2
        subst h2
        simpa [cellsWf] using hm
      · simpa [cellsWf] using cellsAbove_cellWrite rest k a v hm (by omega)

/-- An entry of a written list is the new one or an old one. -/
theorem mem_cellWrite {α : Type} (m : List (Nat × α)) (a : Nat) (v : α) (c : Nat × α) (h : c ∈ cellWrite m a v) :
    c = (a, v) ∨ c ∈ m := by
  induction m with
  | nil => simpa [cellWrite] using h
  | cons d rest ih =>
    obtain ⟨k, w⟩ := d
    simp only [cellWrite] at h
    split at h
    · simpa using h
    · split at h
      · rcases List.mem_cons.mp h with h | h
        · exact .inl h
        · exact .inr (List.mem_cons_of_mem _ h)
      · rcases List.mem_cons.mp h with h | h
        · exact .inr (by simp [h])
        · rcases ih h with h | h
          · exact .inl h
          · exact .inr (List.mem_cons_of_mem _ h)

/-! ### The device's storage -/

/-- Device byte addresses lie in the space of 2^22 half-words (`20_memory.md` R52). -/
theorem deviceByteAddr_lt (ca : CommandWord) (k b : Nat) : deviceByteAddr ca k b < 2 ^ 23 := by
  unfold deviceByteAddr
  have h1 := Nat.mod_lt ((commandHalfword ca).toNat + 2 * k + b / 2) (by norm_num : 0 < 2 ^ 22)
  have h2 := Nat.mod_lt b (by norm_num : 0 < 2)
  omega

/-- What one beat of `DevWrite` does to a byte (`20_memory.md` R65). -/
theorem byte_deviceStoreBeat (ca : CommandWord) (k : Nat) (c : ShiftCall) (b : Nat) (m : Memory) (a : Nat) :
    (deviceStoreBeat ca k c b m).byte a =
      if beatStrobe c.mask b = false ∧ a = deviceByteAddr ca k b then some (beatByte c.word b) else m.byte a := by
  unfold deviceStoreBeat Memory.byte
  cases h : beatStrobe c.mask b
  · simp [cellRead_cellWrite]
  · simp

/-- The four bytes of one word have four addresses. -/
theorem deviceByteAddr_inj (ca : CommandWord) (k b c : Nat) (hb : b < 4) (hc : c < 4)
    (h : deviceByteAddr ca k b = deviceByteAddr ca k c) : b = c := by
  unfold deviceByteAddr at h
  have hb2 : b / 2 < 2 := by omega
  have hc2 : c / 2 < 2 := by omega
  omega

/-- A byte no beat of the transmit names keeps its content (`20_memory.md` R65). -/
theorem byte_deviceWrite_ne (ca : CommandWord) (k : Nat) (c : ShiftCall) (m : Memory) (a : Nat)
    (h : ∀ b < 4, beatStrobe c.mask b = false → a ≠ deviceByteAddr ca k b) :
    (deviceWrite ca k c m).byte a = m.byte a := by
  have h' : ∀ b < 4, ¬(beatStrobe c.mask b = false ∧ a = deviceByteAddr ca k b) :=
    fun b hb hc => h b hb hc.1 hc.2
  simp only [deviceWrite, byte_deviceStoreBeat, if_neg (h' 0 (by omega)), if_neg (h' 1 (by omega)),
    if_neg (h' 2 (by omega)), if_neg (h' 3 (by omega))]

/-- A byte the storage lists reads as it stands there. -/
theorem deviceByte_some (init : Nat → Byte) (m : Memory) (a : Nat) (v : Byte) (h : m.byte a = some v) :
    deviceByte init m a = v := by
  simp [deviceByte, h]

/-- The byte that a word read from the device carries at beat `b` (`20_memory.md` R64). -/
theorem beatByte_deviceRead (init : Nat → Byte) (ca : CommandWord) (k : Nat) (m : Memory) (b : Nat) (hb : b < 4) :
    beatByte (deviceRead init ca k m) b = deviceByte init m (deviceByteAddr ca k b) := by
  have : b = 0 ∨ b = 1 ∨ b = 2 ∨ b = 3 := by omega
  rcases this with rfl | rfl | rfl | rfl <;> unfold beatByte deviceRead <;> apply BitVec.eq_of_getLsbD_eq <;>
    intro i hi <;> simp only [BitVec.getLsbD_extractLsb', BitVec.getLsbD_append] <;> interval_cases i <;> simp

/-- A transmit of one beat keeps the form. -/
theorem memoryInv_deviceStoreBeat (ca : CommandWord) (k : Nat) (c : ShiftCall) (b : Nat) (m : Memory)
    (h : MemoryInv m) : MemoryInv (deviceStoreBeat ca k c b m) := by
  unfold deviceStoreBeat
  split
  · exact h
  · refine ⟨cellsWf_cellWrite m _ _ h.form, fun d hd => ?_⟩
    rcases mem_cellWrite m _ _ d hd with rfl | hd
    · exact deviceByteAddr_lt ca k b
    · exact h.range d hd

/-- Every operation on the device's storage keeps its canonical form and its range. -/
theorem memoryInv_deviceWrite (ca : CommandWord) (k : Nat) (c : ShiftCall) (m : Memory) (h : MemoryInv m) :
    MemoryInv (deviceWrite ca k c m) :=
  memoryInv_deviceStoreBeat _ _ _ _ _ (memoryInv_deviceStoreBeat _ _ _ _ _
    (memoryInv_deviceStoreBeat _ _ _ _ _ (memoryInv_deviceStoreBeat _ _ _ _ _ h)))

/-- The reset state's storage has the canonical form. -/
theorem memoryInv_reset : MemoryInv State.reset.devMem :=
  ⟨rfl, fun _ h => by simp [State.reset] at h⟩

/-! ### Lists of lines -/

@[simp] theorem setAt_getElem?_same {α : Type} (fill : α) (l : List α) (i : Nat) (v : α) :
    (setAt fill l i v)[i]? = some v := by
  induction i generalizing l with
  | zero => cases l <;> rfl
  | succ n ih => cases l <;> simp [setAt, ih]

theorem setAt_getElem?_ne {α : Type} (fill : α) (l : List α) (i j : Nat) (v : α) (h : j ≠ i) :
    ((setAt fill l i v)[j]?).getD fill = (l[j]?).getD fill := by
  induction i generalizing l j with
  | zero =>
    cases j with
    | zero => exact absurd rfl h
    | succ m => cases l <;> simp [setAt]
  | succ n ih =>
    cases j with
    | zero => cases l <;> simp [setAt]
    | succ m =>
      have hm : m ≠ n := fun e => h (by omega)
      cases l with
      | nil => simpa [setAt] using ih [] m hm
      | cons x rest => simpa [setAt] using ih rest m hm

/-- Entry `n` of a ticked list. -/
@[simp] theorem tickFrom_getElem? {α : Type} (f : Nat → α → α) (i : Nat) (l : List α) (n : Nat) :
    (tickFrom f i l)[n]? = (l[n]?).map (f (i + n)) := by
  induction l generalizing i n with
  | nil => simp [tickFrom]
  | cons x rest ih =>
    cases n with
    | zero => simp [tickFrom]
    | succ m =>
      simp only [tickFrom, List.getElem?_cons_succ, ih]
      congr 2
      omega

@[simp] theorem tickFrom_length {α : Type} (f : Nat → α → α) (i : Nat) (l : List α) :
    (tickFrom f i l).length = l.length := by
  induction l generalizing i with
  | nil => rfl
  | cons x rest ih => simp [tickFrom, ih]

/-- An entry of a ticked list comes from an entry of the list. -/
theorem mem_tickFrom {α : Type} (f : Nat → α → α) (i : Nat) (l : List α) (y : α) (h : y ∈ tickFrom f i l) :
    ∃ n x, x ∈ l ∧ y = f n x := by
  induction l generalizing i with
  | nil => simp [tickFrom] at h
  | cons x rest ih =>
    rcases List.mem_cons.mp h with rfl | h
    · exact ⟨i, x, by simp, rfl⟩
    · obtain ⟨n, x', hx, e⟩ := ih (i + 1) h
      exact ⟨n, x', List.mem_cons_of_mem _ hx, e⟩

/-- Two functions that agree on the list's entries tick it alike. -/
theorem tickFrom_congr {α : Type} (f g : Nat → α → α) (i : Nat) (l : List α) (h : ∀ n, ∀ x ∈ l, f n x = g n x) :
    tickFrom f i l = tickFrom g i l := by
  induction l generalizing i with
  | nil => rfl
  | cons x rest ih =>
    simp only [tickFrom, h i x (by simp), ih (i + 1) fun n y hy => h n y (List.mem_cons_of_mem _ hy)]

end Sys2Proof.Machine
end

