-- ==== Sys2Proof/Laws/Tick.lean ====
section
/-! SUPPORT. What a `sys` tick can do, said once per component, with and without reset; and what the shared operations of
a queue's and a crossing's side can answer. -/

namespace Sys2Proof.Machine

/-! ### The tick without reset -/

theorem sysTick_run (s : State) (h : s.inp.rst = false) : sysTick s = runTick s := by
  simp [sysTick, h]

theorem sysTickCalling_run (call : Option ShiftCall) (s : State) (h : s.inp.rst = false) :
    sysTickCalling call s = runTickCalling call s := by
  simp [sysTickCalling, h]

/-- The plain tick is the tick with the FSM's own call. -/
theorem sysTickCalling_fsmNow (s : State) : sysTickCalling (fsmNow s).call s = sysTick s := rfl

@[simp] theorem runTickCalling_params (c : Option ShiftCall) (s : State) : (runTickCalling c s).params = s.params := rfl
@[simp] theorem runTickCalling_fsm (c : Option ShiftCall) (s : State) : (runTickCalling c s).fsm = fsmAfter s := rfl
@[simp] theorem runTickCalling_phy (c : Option ShiftCall) (s : State) :
    (runTickCalling c s).phy = phyTick s.params (linesNow s) s.inp.dly c s.phy := rfl
@[simp] theorem runTickCalling_writer (c : Option ShiftCall) (s : State) :
    (runTickCalling c s).writer = engineAfter s .writer := rfl
@[simp] theorem runTickCalling_reader (c : Option ShiftCall) (s : State) :
    (runTickCalling c s).reader = engineAfter s .reader := rfl
@[simp] theorem runTickCalling_engine (c : Option ShiftCall) (s : State) (e : EngineId) :
    (runTickCalling c s).engine e = engineAfter s e := by cases e <;> rfl
@[simp] theorem runTickCalling_queues (c : Option ShiftCall) (s : State) :
    (runTickCalling c s).queues = queuesSysTick s 0 s.queues := rfl
@[simp] theorem runTickCalling_crossings (c : Option ShiftCall) (s : State) :
    (runTickCalling c s).crossings = crossingsSysTick s 0 s.crossings := rfl
@[simp] theorem runTickCalling_devMem (c : Option ShiftCall) (s : State) :
    (runTickCalling c s).devMem = deviceAfter c s := rfl
@[simp] theorem runTickCalling_inp (c : Option ShiftCall) (s : State) : (runTickCalling c s).inp = s.inp.settle := rfl
@[simp] theorem runTickCalling_out (c : Option ShiftCall) (s : State) : (runTickCalling c s).out = outputsNow s := rfl
@[simp] theorem runTickCalling_free (c : Option ShiftCall) (s : State) : (runTickCalling c s).free = freeAfter s := rfl
@[simp] theorem runTickCalling_tapMoved (c : Option ShiftCall) (s : State) :
    (runTickCalling c s).tapMoved = windowDisturbed s := rfl
@[simp] theorem runTickCalling_script (c : Option ShiftCall) (s : State) : (runTickCalling c s).script = s.script := rfl

/-- Everything a plain tick without reset does. -/
theorem sysTick_eq (s : State) (h : s.inp.rst = false) : sysTick s = runTickCalling (fsmNow s).call s :=
  sysTick_run s h

/-! ### The tick with reset (`70_reset_and_hazards.md` R320, R322, R323) -/

theorem sysTick_reset (s : State) (h : s.inp.rst = true) : sysTick s = resetTick s := by
  simp [sysTick, h]

theorem sysTickCalling_reset (call : Option ShiftCall) (s : State) (h : s.inp.rst = true) :
    sysTickCalling call s = resetTick s := by
  simp [sysTickCalling, h]

@[simp] theorem resetTick_params (s : State) : (resetTick s).params = s.params := rfl
@[simp] theorem resetTick_fsm (s : State) : (resetTick s).fsm = Fsm.reset := rfl
@[simp] theorem resetTick_phy (s : State) : (resetTick s).phy = Phy.reset := rfl
@[simp] theorem resetTick_writer (s : State) : (resetTick s).writer = Engine.reset := rfl
@[simp] theorem resetTick_reader (s : State) : (resetTick s).reader = Engine.reset := rfl
@[simp] theorem resetTick_engine (s : State) (e : EngineId) : (resetTick s).engine e = Engine.reset := by cases e <;> rfl
@[simp] theorem resetTick_queues (s : State) : (resetTick s).queues = queuesSysTick s 0 s.queues := rfl
@[simp] theorem resetTick_crossings (s : State) : (resetTick s).crossings = crossingsSysTick s 0 s.crossings := rfl
@[simp] theorem resetTick_devMem (s : State) : (resetTick s).devMem = s.devMem := rfl
@[simp] theorem resetTick_inp (s : State) : (resetTick s).inp = s.inp.settle := rfl
@[simp] theorem resetTick_free (s : State) : (resetTick s).free = s.free := rfl
@[simp] theorem resetTick_tapMoved (s : State) : (resetTick s).tapMoved = false := rfl
@[simp] theorem resetTick_script (s : State) : (resetTick s).script = s.script := rfl

/-! ### Either tick -/

@[simp] theorem sysTick_params (s : State) : (sysTick s).params = s.params := by
  unfold sysTick; split <;> rfl

@[simp] theorem sysTick_script (s : State) : (sysTick s).script = s.script := by
  unfold sysTick; split <;> rfl

@[simp] theorem sysTick_inp (s : State) : (sysTick s).inp = s.inp.settle := by
  unfold sysTick; split <;> rfl

@[simp] theorem sysTick_queues (s : State) : (sysTick s).queues = queuesSysTick s 0 s.queues := by
  unfold sysTick; split <;> rfl

@[simp] theorem sysTick_crossings (s : State) : (sysTick s).crossings = crossingsSysTick s 0 s.crossings := by
  unfold sysTick; split <;> rfl

@[simp] theorem settle_rst (l : Inputs) : l.settle.rst = false := rfl
@[simp] theorem settle_grant (l : Inputs) : l.settle.grant = l.grant := rfl
@[simp] theorem settle_bus (l : Inputs) : l.settle.bus = l.bus := rfl
@[simp] theorem settle_pins (l : Inputs) : l.settle.pins = l.pins := rfl
@[simp] theorem settle_dly (l : Inputs) : l.settle.dly = 0 := rfl
@[simp] theorem settle_writer (l : Inputs) : l.settle.writer = { l.writer with csr := none, start := false } := rfl
@[simp] theorem settle_reader (l : Inputs) : l.settle.reader = { l.reader with csr := none, start := false } := rfl
@[simp] theorem settle_eng (l : Inputs) (e : EngineId) :
    l.settle.eng e = { l.eng e with csr := none, start := false } := by cases e <;> rfl

/-! ### Queues and crossings at a `sys` tick, one by one -/

theorem queuesSysTick_getElem? (s : State) (i : Nat) (qs : List Queue) (n : Nat) :
    (queuesSysTick s i qs)[n]? = (qs[n]?).map (queueSysTick s (i + n)) := by
  simp [queuesSysTick]

theorem crossingsSysTick_getElem? (s : State) (i : Nat) (cs : List Crossing) (n : Nat) :
    (crossingsSysTick s i cs)[n]? = (cs[n]?).map (crossingSysTick s (i + n)) := by
  simp [crossingsSysTick]

theorem sysTick_queue (s : State) (n : Nat) : (sysTick s).queues[n]? = (s.queues[n]?).map (queueSysTick s n) := by
  simp [queuesSysTick]

theorem sysTick_crossing (s : State) (n : Nat) :
    (sysTick s).crossings[n]? = (s.crossings[n]?).map (crossingSysTick s n) := by
  simp [crossingsSysTick]

theorem mem_queuesSysTick (s : State) (i : Nat) (qs : List Queue) (q : Queue) (h : q ∈ queuesSysTick s i qs) :
    ∃ n p, p ∈ qs ∧ q = queueSysTick s n p :=
  mem_tickFrom _ i qs q h

theorem mem_crossingsSysTick (s : State) (i : Nat) (cs : List Crossing) (c : Crossing)
    (h : c ∈ crossingsSysTick s i cs) : ∃ n p, p ∈ cs ∧ c = crossingSysTick s n p :=
  mem_tickFrom _ i cs c h

/-! ### Queues and crossings at a tick of a foreign domain, one by one -/

/-- What a foreign tick does to queue `n`. -/
theorem domainTick_queue (d : Domain) (s : State) (n : Nat) :
    (domainTick d s).queues[n]? =
      (s.queues[n]?).map fun q => if q.cfg.farDomain = d then queueFarTick s n q else q := by
  simp [queuesFarTick]

/-- What a foreign tick does to crossing `n`. -/
theorem domainTick_crossing (d : Domain) (s : State) (n : Nat) :
    (domainTick d s).crossings[n]? =
      (s.crossings[n]?).map fun c => if c.farDomain = d then crossingFarTick s n c else c := by
  simp [crossingsFarTick]

theorem mem_queuesFarTick (d : Domain) (s : State) (i : Nat) (qs : List Queue) (q : Queue)
    (h : q ∈ queuesFarTick d s i qs) : ∃ n p, p ∈ qs ∧ (q = queueFarTick s n p ∨ q = p) := by
  obtain ⟨n, p, hp, e⟩ := mem_tickFrom _ i qs q h
  refine ⟨n, p, hp, ?_⟩
  split at e
  · exact .inl e
  · exact .inr e

theorem mem_crossingsFarTick (d : Domain) (s : State) (i : Nat) (cs : List Crossing) (c : Crossing)
    (h : c ∈ crossingsFarTick d s i cs) : ∃ n p, p ∈ cs ∧ (c = crossingFarTick s n p ∨ c = p) := by
  obtain ⟨n, p, hp, e⟩ := mem_tickFrom _ i cs c h
  refine ⟨n, p, hp, ?_⟩
  split at e
  · exact .inl e
  · exact .inr e

/-- The lines of queue `n` after a foreign tick: its far side's reset rests, if that side is in the domain. -/
theorem queueLines_domainTick (d : Domain) (s : State) (n : Nat) :
    queueLines (domainTick d s) n =
      if queueFarIn d s n = true then (queueLines s n).settleFar else queueLines s n := by
  simp only [queueLines, domainTick_inp, State.settleFar, tickFrom_getElem?, Nat.zero_add]
  cases s.inp.queues[n]? <;> simp [QueueIn.settleFar, QueueIn.idle]

/-- The lines of crossing `n` after a foreign tick: its far pulse rests, if that end is in the domain. -/
theorem crossLines_domainTick (d : Domain) (s : State) (n : Nat) :
    crossLines (domainTick d s) n =
      if crossingFarIn d s n = true then (crossLines s n).settleFar else crossLines s n := by
  simp only [crossLines, domainTick_inp, State.settleFar, tickFrom_getElem?, Nat.zero_add]
  cases s.inp.crossings[n]? <;> simp [CrossIn.settleFar, CrossIn.idle]

/-! ### The lines an operation puts on its queue or crossing -/

@[simp] theorem queueLines_putQueue_same (s : State) (n : Nat) (rst : Bool) (link : QueueLink) :
    queueLines (s.putQueue n rst link) n = { queueLines s n with rst := rst, link := link } := by
  simp [queueLines]

theorem queueLines_putQueue_ne (s : State) (n m : Nat) (rst : Bool) (link : QueueLink) (h : m ≠ n) :
    queueLines (s.putQueue n rst link) m = queueLines s m := by
  simp only [queueLines, putQueue_inp_queues, setAt_getElem?_ne _ _ _ _ _ h]

@[simp] theorem queueLines_putFarQueue_same (s : State) (n : Nat) (l : FarIn) :
    queueLines (s.putFarQueue n l) n = { queueLines s n with far := l } := by
  simp [queueLines]

theorem queueLines_putFarQueue_ne (s : State) (n m : Nat) (l : FarIn) (h : m ≠ n) :
    queueLines (s.putFarQueue n l) m = queueLines s m := by
  simp only [queueLines, putFarQueue_inp_queues, setAt_getElem?_ne _ _ _ _ _ h]

@[simp] theorem crossLines_putPulse_same (s : State) (x : Nat) (pulse : Bool) :
    crossLines (s.putPulse x pulse) x = { crossLines s x with pulse := pulse } := by
  simp [crossLines]

theorem crossLines_putPulse_ne (s : State) (x y : Nat) (pulse : Bool) (h : y ≠ x) :
    crossLines (s.putPulse x pulse) y = crossLines s y := by
  simp only [crossLines, putPulse_inp_crossings, setAt_getElem?_ne _ _ _ _ _ h]

@[simp] theorem crossLines_putFarPulse_same (s : State) (x : Nat) (pulse : Bool) :
    crossLines (s.putFarPulse x pulse) x = { crossLines s x with farPulse := pulse } := by
  simp [crossLines]

theorem crossLines_putFarPulse_ne (s : State) (x y : Nat) (pulse : Bool) (h : y ≠ x) :
    crossLines (s.putFarPulse x pulse) y = crossLines s y := by
  simp only [crossLines, putFarPulse_inp_crossings, setAt_getElem?_ne _ _ _ _ _ h]

/-! ### What the operations of one side can answer -/

/-- Everything a write-side operation can do, if it answers a next state (`46_cdc_queue.md` R261). -/
theorem queueWriteStep_cases {n : Nat} {rst valid : Bool} {data : Nat} {s t : State}
    (h : queueWriteStep n rst valid data s = .next t) :
    ∃ q, s.queues[n]? = some q ∧
      ((q.cfg.sysSide = .write ∧ t = sysTick (s.putQueue n rst (.lines valid false data))) ∨
        (q.cfg.sysSide = .read ∧
          t = domainTick q.cfg.farDomain (s.putFarQueue n ⟨rst, valid, false, data⟩))) := by
  unfold queueWriteStep at h
  split at h
  · cases h
  · rename_i q hq
    refine ⟨q, hq, ?_⟩
    split at h <;> rename_i hs <;> cases h
    · exact .inl ⟨hs, rfl⟩
    · exact .inr ⟨hs, rfl⟩

/-- Everything a read-side operation can do, if it answers a next state (`46_cdc_queue.md` R261). -/
theorem queueReadStep_cases {n : Nat} {rst ready : Bool} {s t : State}
    (h : queueReadStep n rst ready s = .next t) :
    ∃ q, s.queues[n]? = some q ∧
      ((q.cfg.sysSide = .read ∧ t = sysTick (s.putQueue n rst (.lines false ready 0))) ∨
        (q.cfg.sysSide = .write ∧
          t = domainTick q.cfg.farDomain (s.putFarQueue n ⟨rst, false, ready, 0⟩))) := by
  unfold queueReadStep at h
  split at h
  · cases h
  · rename_i q hq
    refine ⟨q, hq, ?_⟩
    split at h <;> rename_i hs <;> cases h
    · exact .inl ⟨hs, rfl⟩
    · exact .inr ⟨hs, rfl⟩

/-- Everything a source-side operation can do, if it answers a next state (`46_cdc_queue.md` R272). -/
theorem crossingSourceStep_cases {x : Nat} {pulse : Bool} {s t : State}
    (h : crossingSourceStep x pulse s = .next t) :
    ∃ c, s.crossings[x]? = some c ∧
      ((c.sysSide = .source ∧ t = sysTick (s.putPulse x pulse)) ∨
        (c.sysSide = .dest ∧ t = domainTick c.farDomain (s.putFarPulse x pulse))) := by
  unfold crossingSourceStep at h
  split at h
  · cases h
  · rename_i c hc
    refine ⟨c, hc, ?_⟩
    split at h <;> rename_i hs <;> cases h
    · exact .inl ⟨hs, rfl⟩
    · exact .inr ⟨hs, rfl⟩

/-- Everything a destination-side operation can do, if it answers a next state (`46_cdc_queue.md` R273, R274). -/
theorem crossingDestStep_cases {x : Nat} {s t : State} (h : crossingDestStep x s = .next t) :
    ∃ c, s.crossings[x]? = some c ∧
      ((c.sysSide = .dest ∧ t = sysTick s) ∨
        (c.sysSide = .source ∧ t = domainTick c.farDomain s)) := by
  unfold crossingDestStep at h
  split at h
  · cases h
  · rename_i c hc
    refine ⟨c, hc, ?_⟩
    split at h <;> rename_i hs <;> cases h
    · exact .inl ⟨hs, rfl⟩
    · exact .inr ⟨hs, rfl⟩

/-! ### Everything a step can do -/

/-- If a step answers a next state, the build is legal and the fetched word decodes to an operation that can take place
in this cycle, and `exec` answers that state. -/
theorem step_cases {s t : State} (h : step s = .next t) :
    s.legalBuild = true ∧ ∃ i, decode (fetch s) = .ok i ∧ selects i (nextCycle s) = true ∧
      exec i (nextCycle s) = .next t := by
  unfold step at h
  split at h
  · rename_i hb
    split at h
    · cases h
    · rename_i i hi
      split at h
      · rename_i hsel
        exact ⟨hb, i, hi, hsel, h⟩
      · cases h
  · cases h

@[simp] theorem nextCycle_params (s : State) : (nextCycle s).params = s.params := by unfold nextCycle; split <;> rfl
@[simp] theorem nextCycle_fsm (s : State) : (nextCycle s).fsm = s.fsm := by unfold nextCycle; split <;> rfl
@[simp] theorem nextCycle_phy (s : State) : (nextCycle s).phy = s.phy := by unfold nextCycle; split <;> rfl
@[simp] theorem nextCycle_writer (s : State) : (nextCycle s).writer = s.writer := by unfold nextCycle; split <;> rfl
@[simp] theorem nextCycle_reader (s : State) : (nextCycle s).reader = s.reader := by unfold nextCycle; split <;> rfl
@[simp] theorem nextCycle_queues (s : State) : (nextCycle s).queues = s.queues := by unfold nextCycle; split <;> rfl
@[simp] theorem nextCycle_crossings (s : State) : (nextCycle s).crossings = s.crossings := by
  unfold nextCycle; split <;> rfl
@[simp] theorem nextCycle_devMem (s : State) : (nextCycle s).devMem = s.devMem := by unfold nextCycle; split <;> rfl
@[simp] theorem nextCycle_free (s : State) : (nextCycle s).free = s.free := by unfold nextCycle; split <;> rfl
@[simp] theorem nextCycle_tapMoved (s : State) : (nextCycle s).tapMoved = s.tapMoved := by
  unfold nextCycle; split <;> rfl
@[simp] theorem nextCycle_out (s : State) : (nextCycle s).out = s.out := by unfold nextCycle; split <;> rfl

end Sys2Proof.Machine
end

