-- ==== Sys2Proof/Laws/Components.lean ====
section
/-! SUPPORT. One lemma per shared operation of a component: the protocol FSM's rule by state, the engines' tick by case, a
queue's side by case, a crossing's end by case. -/

namespace Sys2Proof.Machine

/-! ### The protocol FSM: the state register alone selects the rule (`10_state.md` R10) -/

section Rules
variable {p : Params} {b : BusIn} {x : Phy} {f : Fsm}

theorem fsmRule_idle (h : f.state = .idle) : fsmRule p b x f = ruleIdle b f := by simp [fsmRule, h]
theorem fsmRule_cmd (h : f.state = .cmd) : fsmRule p b x f = ruleCmd f := by simp [fsmRule, h]
theorem fsmRule_rwdsWait (h : f.state = .rwdsWait) : fsmRule p b x f = ruleRwdsWait x f := by simp [fsmRule, h]
theorem fsmRule_readStart (h : f.state = .readStart) : fsmRule p b x f = ruleReadStart x f := by simp [fsmRule, h]
theorem fsmRule_readAck (h : f.state = .readAck) : fsmRule p b x f = ruleReadAck b f := by simp [fsmRule, h]
theorem fsmRule_readBurst (h : f.state = .readBurst) : fsmRule p b x f = ruleReadBurst x f := by simp [fsmRule, h]
theorem fsmRule_latencyWrite (h : f.state = .latencyWrite) : fsmRule p b x f = ruleLatencyWrite p f := by
  simp [fsmRule, h]
theorem fsmRule_wPrep (h : f.state = .wPrep) : fsmRule p b x f = ruleWPrep b f := by simp [fsmRule, h]
theorem fsmRule_writeBurst (h : f.state = .writeBurst) : fsmRule p b x f = ruleWriteBurst f := by simp [fsmRule, h]
theorem fsmRule_writeFinish (h : f.state = .writeFinish) : fsmRule p b x f = ruleWriteFinish f := by simp [fsmRule, h]
theorem fsmRule_timeout (h : f.state = .timeout) : fsmRule p b x f = ruleTimeout f := by simp [fsmRule, h]
theorem fsmRule_cleanup (h : f.state = .cleanup) : fsmRule p b x f = ruleCleanup f := by simp [fsmRule, h]

end Rules

/-- The command word is written by the rule of `IDLE` alone (`41_command_encoder.md` R133). -/
theorem fsmRule_ca {p : Params} {b : BusIn} {x : Phy} {f : Fsm} (h : f.state ≠ .idle) :
    (fsmRule p b x f).fsm.ca = f.ca := by
  cases hs : f.state <;>
    simp_all [fsmRule, ruleCmd, ruleRwdsWait, ruleReadStart, ruleReadAck, ruleReadBurst, ruleLatencyWrite, ruleWPrep,
      ruleWriteBurst, ruleWriteFinish, ruleTimeout, ruleCleanup, waitForStrobe] <;>
    (repeat' split) <;> rfl

/-! ### The command encoder's fields (`30_encoding.md` R81) -/

theorem isReadCommand_encodeCommand (adr : BitVec 32) (we : Bool) : isReadCommand (encodeCommand adr we) = !we := by
  unfold isReadCommand encodeCommand
  simp only [BitVec.getLsbD_append]
  cases we <;> simp

/-- The half-word address of a built command word: the word index and a 0 (`20_memory.md` R52, `30_encoding.md` R82). -/
theorem commandHalfword_encodeCommand (adr : BitVec 32) (we : Bool) :
    commandHalfword (encodeCommand adr we) = adr.extractLsb' 0 21 ++ 0#1 := by
  unfold commandHalfword encodeCommand
  apply BitVec.eq_of_getLsbD_eq
  intro i hi
  simp only [BitVec.getLsbD_append, BitVec.getLsbD_extractLsb']
  interval_cases i <;> simp

/-! ### The engines (`45_dma_engines.md` R250) -/

/-- An idle engine's tick without register access or start: it opens a burst or nothing changes (R230, R231). -/
theorem engTick_idle (extSync : Bool) (l : EngIn) (acked partnerOk : Bool) (g : Engine) (hl : l.csr = none)
    (hs : l.start = false) (hg : g.est = .idle) :
    engTick extSync l acked partnerOk g =
      if g.busy && partnerOk then { g with est := .active, bwordCnt := 0 } else g := by
  cases g
  cases extSync <;>
    simp_all [engTick, engConfigure, engEnable, engStart, engOpen, engAcknowledge, engAbort, startOk, startEvent,
      enablePulse, resetPulse, csrWrites, engActive]

/-- An active engine's tick without register access: it counts an acknowledged word or nothing changes (R232, R234,
R235). -/
theorem engTick_active (extSync : Bool) (l : EngIn) (acked partnerOk : Bool) (g : Engine) (hl : l.csr = none)
    (hg : g.est = .active) (hb : g.busy = true) :
    engTick extSync l acked partnerOk g =
      if acked then engCountBurst (lastOfBurst g) g (engCountTransfer (lastOfTransfer g) g g) else g := by
  cases g
  cases extSync <;> cases acked <;>
    simp_all [engTick, engConfigure, engEnable, engStart, engOpen, engAcknowledge, engAbort, startOk, startEvent,
      enablePulse, resetPulse, csrWrites, engActive]

/-- The `reset` pulse has the last word (R226, R227). -/
theorem engTick_resetPulse (extSync : Bool) (l : EngIn) (acked partnerOk : Bool) (g : Engine) (v : Word)
    (hl : l.csr = some ⟨true, 5, v⟩) :
    engTick extSync l acked partnerOk g =
      { g with busy := false, done := false, enabled := false, est := .idle, wordCnt := 0, bwordCnt := 0 } := by
  cases g
  simp only [engTick, engConfigure, engEnable, engStart, engOpen, engAcknowledge, engAbort, enablePulse, resetPulse,
    csrWrites, hl, engCountBurst, engCountTransfer]
  simp
  repeat' split
  all_goals simp

/-- No tick but a configuration write changes the three configuration registers (R212 to R214, `10_state.md` R23). -/
theorem engTick_config (extSync : Bool) (l : EngIn) (acked partnerOk : Bool) (g : Engine) :
    configOf (engTick extSync l acked partnerOk g) = configOf (engConfigure l.csr g) := by
  unfold engTick engAbort engAcknowledge engOpen engStart engEnable engCountBurst engCountTransfer configOf
  repeat' split
  all_goals rfl

theorem engineInv_abort (pulse : Bool) (g : Engine) (h : EngineInv g) : EngineInv (engAbort pulse g) := by
  unfold EngineInv engAbort at *
  split <;> simp_all

theorem engineInv_acknowledge (acked : Bool) (b g : Engine) (h : EngineInv g) :
    EngineInv (engAcknowledge acked b g) := by
  unfold EngineInv engAcknowledge engCountBurst engCountTransfer lastOfBurst at *
  cases lastOfTransfer b <;> cases acked <;> simp_all <;> split <;> simp_all

theorem engineInv_open (opens : Bool) (g : Engine) (h : EngineInv g) (ho : opens = true → g.busy = true) :
    EngineInv (engOpen opens g) := by
  unfold EngineInv engOpen at *
  split <;> simp_all

theorem engineInv_start (ok : Bool) (g : Engine) (h : EngineInv g) : EngineInv (engStart ok g) := by
  unfold EngineInv engStart at *
  split <;> simp_all

theorem engineInv_enable (pulse : Bool) (g : Engine) (h : EngineInv g) : EngineInv (engEnable pulse g) := by
  unfold EngineInv engEnable at *
  split <;> simp_all

/-- An active engine is busy after every tick, if it was before (R250). -/
theorem engTick_inv (extSync : Bool) (l : EngIn) (acked partnerOk : Bool) (g : Engine) (h : EngineInv g) :
    EngineInv (engTick extSync l acked partnerOk g) := by
  refine engineInv_abort _ _ (engineInv_acknowledge _ _ _ (engineInv_open _ _
    (engineInv_start _ _ (engineInv_enable _ _ h)) fun ho => ?_))
  have hb : g.busy = true := by simp_all
  unfold engStart engEnable engConfigure
  (repeat' split) <;> simp [hb]

/-! ### The frame of a tick -/

/-- Everything a tick does beside the protocol controller, the output registers and the storage. -/
theorem restTicks_run (c : Option ShiftCall) (s : State) : RestTicks s (runTickCalling c s) :=
  ⟨rfl, rfl, rfl, rfl, rfl, rfl, rfl, rfl, rfl, rfl⟩

/-- What the queues do in a tick depends on the reset, on their lines and on what faces them, and on nothing else. -/
theorem queuesSysTick_congr (s t : State) (hr : s.inp.rst = t.inp.rst) (hl : ∀ i, queueLines s i = queueLines t i)
    (ho : ∀ i, queueOffer s i = queueOffer t i) (ht : ∀ i, queueTake s i = queueTake t i) (n : Nat) (qs : List Queue) :
    queuesSysTick s n qs = queuesSysTick t n qs :=
  tickFrom_congr _ _ n qs fun i q _ => by simp only [queueSysTick, queueSideRst, hr, hl, ho, ht]

/-- What the crossings do in a tick depends on the reset, on their lines and on the build, and on nothing else. -/
theorem crossingsSysTick_congr (s t : State) (hr : s.inp.rst = t.inp.rst) (hl : ∀ i, crossLines s i = crossLines t i)
    (hp : s.params = t.params) (n : Nat) (cs : List Crossing) :
    crossingsSysTick s n cs = crossingsSysTick t n cs :=
  tickFrom_congr _ _ n cs fun i c _ => by simp only [crossingSysTick, hr, hl, hp]

/-! ### A queue's sides (`46_cdc_queue.md` R276) -/

theorem pointerModulus_pos (q : Queue) : 0 < pointerModulus q :=
  Nat.mul_pos (by norm_num) (Nat.two_pow_pos _)

theorem queueDepth_pos (q : Queue) : 0 < queueDepth q := Nat.two_pow_pos _

@[simp] theorem scramble_cfg (q : Queue) : (scramble q).cfg = q.cfg := rfl

@[simp] theorem releaseWrite_cfg (q : Queue) : (releaseWrite q).cfg = q.cfg := by
  unfold releaseWrite; (repeat' split) <;> rfl

@[simp] theorem releaseRead_cfg (q : Queue) : (releaseRead q).cfg = q.cfg := by
  unfold releaseRead; (repeat' split) <;> rfl

@[simp] theorem queueWriteTick_cfg (rst valid : Bool) (data : Nat) (q : Queue) :
    (queueWriteTick rst valid data q).cfg = q.cfg := by
  unfold queueWriteTick
  split <;> simp [writeResetTick, writeRunTick, syncReadPointer]

@[simp] theorem queueReadTick_cfg (rst ready : Bool) (q : Queue) : (queueReadTick rst ready q).cfg = q.cfg := by
  unfold queueReadTick
  split <;> simp [readResetTick, readRunTick, syncWritePointer]

@[simp] theorem queueSysTick_cfg (s : State) (n : Nat) (q : Queue) : (queueSysTick s n q).cfg = q.cfg := by
  unfold queueSysTick; split <;> simp

@[simp] theorem queueFarTick_cfg (s : State) (n : Nat) (q : Queue) : (queueFarTick s n q).cfg = q.cfg := by
  unfold queueFarTick; split <;> simp

/-- A running cycle of a write side that the flush vouches for finds the queue as it stands (`46_cdc_queue.md` R268). -/
theorem releaseWrite_of_trusted (q : Queue) (h : writeTrusted q.flush = true) :
    releaseWrite q = outOfWriteReset q := by
  simp [releaseWrite, h]

/-- One that nothing vouches for draws fresh free values (`46_cdc_queue.md` R269). -/
theorem releaseWrite_of_untrusted (q : Queue) (h : writeTrusted q.flush = false) :
    releaseWrite q = scramble (outOfWriteReset q) := by
  simp [releaseWrite, h]

/-- A running cycle of a read side that the flush vouches for finds the queue as it stands (`46_cdc_queue.md` R268). -/
theorem releaseRead_of_trusted (q : Queue) (h : readTrusted q.flush = true) : releaseRead q = outOfReadReset q := by
  simp [releaseRead, h]

/-- One that nothing vouches for draws fresh free values (`46_cdc_queue.md` R269). -/
theorem releaseRead_of_untrusted (q : Queue) (h : readTrusted q.flush = false) :
    releaseRead q = scramble (outOfReadReset q) := by
  simp [releaseRead, h]

/-- While only the read side is in reset, in a clean flush, a running write side goes by the rules (`46_cdc_queue.md`
R263, R265). -/
theorem writeTrusted_of_vouched (f : Flush) (hu : f.unclean = false) (hw : f.wIn = false) (hv : f.vouched = true) :
    writeTrusted f = true := by
  simp [writeTrusted, hu, hw, hv]

/-- While only the write side is in reset, in a clean flush, a running read side goes by the rules (`46_cdc_queue.md`
R264, R270). -/
theorem readTrusted_of_vouched (f : Flush) (hu : f.unclean = false) (hr : f.rIn = false) (hv : f.vouched = true) :
    readTrusted f = true := by
  simp [readTrusted, hu, hr, hv]

/-- Leaving a reset one is not in changes nothing. -/
theorem outOfWriteReset_of_running (q : Queue) (h : q.flush.wIn = false) : outOfWriteReset q = q := by
  obtain ⟨_, _, _, _, _, _, _, _, ⟨_, _, _, _, _, _, _, _⟩, _, _, _⟩ := q; subst h; rfl

/-- Leaving a reset one is not in changes nothing. -/
theorem outOfReadReset_of_running (q : Queue) (h : q.flush.rIn = false) : outOfReadReset q = q := by
  obtain ⟨_, _, _, _, _, _, _, _, ⟨_, _, _, _, _, _, _, _⟩, _, _, _⟩ := q; subst h; rfl

/-- The release looks at the flush alone: a running write side touches neither pointers nor storage but by a scramble. -/
@[simp] theorem outOfWriteReset_flush (q : Queue) : (outOfWriteReset q).flush = { q.flush with wIn := false } := rfl
@[simp] theorem outOfReadReset_flush (q : Queue) : (outOfReadReset q).flush = { q.flush with rIn := false } := rfl
@[simp] theorem scramble_flush (q : Queue) :
    (scramble q).flush = { q.flush with both := false, unclean := true } := rfl
@[simp] theorem scramble_generation (q : Queue) : (scramble q).generation = q.generation + 1 := rfl

/-- A queue that has been left unspecified stays so at every running tick of its write side, until the next flush begins
(`46_cdc_queue.md` R269). -/
theorem queueWriteTick_unclean (valid : Bool) (data : Nat) (q : Queue) (h : q.flush.unclean = true) :
    (queueWriteTick false valid data q).flush.unclean = true ∧
      (queueWriteTick false valid data q).generation = q.generation + 1 := by
  have hr : releaseWrite q = scramble (outOfWriteReset q) := releaseWrite_of_untrusted q (by simp [writeTrusted, h])
  unfold queueWriteTick
  rw [hr]
  exact ⟨rfl, rfl⟩

/-- The same at every running tick of its read side. -/
theorem queueReadTick_unclean (ready : Bool) (q : Queue) (h : q.flush.unclean = true) :
    (queueReadTick false ready q).flush.unclean = true ∧
      (queueReadTick false ready q).generation = q.generation + 1 := by
  have hr : releaseRead q = scramble (outOfReadReset q) := releaseRead_of_untrusted q (by simp [readTrusted, h])
  unfold queueReadTick
  rw [hr]
  exact ⟨rfl, rfl⟩

/-- A queue whose fields are in range stays so at a scramble. -/
theorem queueInv_scramble (q : Queue) : QueueInv (scramble q) := by
  have h : ∀ n, anyPointer q n < pointerModulus q := fun n => Nat.mod_lt _ (pointerModulus_pos q)
  refine ⟨?_, ?_, h _, h _, h _, h _, rfl, ?_⟩
  · change (if q.flush.wIn then 0 else anyPointer q 0) < pointerModulus q
    split
    · exact pointerModulus_pos q
    · exact h _
  · change (if q.flush.rIn then 0 else anyPointer q 1) < pointerModulus q
    split
    · exact pointerModulus_pos q
    · exact h _
  intro c hc
  simp [scramble] at hc

/-! ### A crossing's ends (`46_cdc_queue.md` R272 to R274) -/

theorem crossingInv_sourceTick (p : Params) (rst pulse : Bool) (c : Crossing) (h : CrossingInv p c) :
    CrossingInv p (crossingSourceTick rst pulse c) := by
  unfold CrossingInv crossingSourceTick at *
  repeat' split
  all_goals exact h

theorem crossingInv_destTick (p : Params) (rst : Bool) (c : Crossing) (h : CrossingInv p c) :
    CrossingInv p (crossingDestTick rst p.resetStretch c) := by
  unfold CrossingInv crossingDestTick stretchNext at *
  (repeat' split) <;> simp <;> omega

end Sys2Proof.Machine
end

