-- ==== Sys2Proof/Laws/PerInstr.lean ====
section
/-! SUPPORT. Facts about every operation as syntax, one lemma per constructor of `Instr`. -/

namespace Sys2Proof.Laws

/-- The width in bits of a port's codes (`30_encoding.md` R81, R85, R89, R90, R95 to R97, R102); an event has none
(R103). -/
def portWidth : Port → Nat
  | .ca => 48
  | .bus => 5
  | .csr _ => 4
  | .dly => 3
  | .fsm => 4
  | .eng _ => 1
  | .strm _ => 2
  | .cdcw _ => 3
  | .cdcr _ => 3
  | .evt _ => 0

end Sys2Proof.Laws

/-- The code an operation encodes to fits its port's width. -/
def Sys2Proof.Laws.CodeFits.Statement (i : Sys2Proof.Instr) : Prop :=
  (Sys2Proof.encode i).code < 2 ^ Sys2Proof.Laws.portWidth (Sys2Proof.encode i).port

/-- A bound between numerals is decided by evaluation. -/
theorem Sys2Proof.Laws.codeFits_of_ble {i : Sys2Proof.Instr}
    (h : Nat.ble ((Sys2Proof.encode i).code + 1) (2 ^ Sys2Proof.Laws.portWidth (Sys2Proof.encode i).port) = true) :
    Sys2Proof.Laws.CodeFits.Statement i :=
  Nat.le_of_ble_eq_true h

namespace Sys2Proof.Laws
open Sys2Proof

theorem CodeFits.caRd (row : BitVec 19) (col : BitVec 2) : CodeFits.Statement (.caRd row col) := by
  exact (encodeCa true row col).isLt

theorem CodeFits.caWr (row : BitVec 19) (col : BitVec 2) : CodeFits.Statement (.caWr row col) := by
  exact (encodeCa false row col).isLt

theorem CodeFits.busNop (we : Bool) (cti : BitVec 3) : CodeFits.Statement (.busNop we cti) := by
  have := cti.isLt
  show 8 * we.toNat + cti.toNat < 32
  cases we <;> simp <;> omega

theorem CodeFits.busRdClassic (o : BusOperands) : CodeFits.Statement (.busRdClassic o) :=
  codeFits_of_ble rfl

theorem CodeFits.busRdBurst (o : BusOperands) : CodeFits.Statement (.busRdBurst o) :=
  codeFits_of_ble rfl

theorem CodeFits.busRdEnd (o : BusOperands) : CodeFits.Statement (.busRdEnd o) :=
  codeFits_of_ble rfl

theorem CodeFits.busRdRsvd001 (o : BusOperands) : CodeFits.Statement (.busRdRsvd001 o) :=
  codeFits_of_ble rfl

theorem CodeFits.busRdRsvd011 (o : BusOperands) : CodeFits.Statement (.busRdRsvd011 o) :=
  codeFits_of_ble rfl

theorem CodeFits.busRdRsvd100 (o : BusOperands) : CodeFits.Statement (.busRdRsvd100 o) :=
  codeFits_of_ble rfl

theorem CodeFits.busRdRsvd101 (o : BusOperands) : CodeFits.Statement (.busRdRsvd101 o) :=
  codeFits_of_ble rfl

theorem CodeFits.busRdRsvd110 (o : BusOperands) : CodeFits.Statement (.busRdRsvd110 o) :=
  codeFits_of_ble rfl

theorem CodeFits.busWrClassic (o : BusOperands) : CodeFits.Statement (.busWrClassic o) :=
  codeFits_of_ble rfl

theorem CodeFits.busWrBurst (o : BusOperands) : CodeFits.Statement (.busWrBurst o) :=
  codeFits_of_ble rfl

theorem CodeFits.busWrEnd (o : BusOperands) : CodeFits.Statement (.busWrEnd o) :=
  codeFits_of_ble rfl

theorem CodeFits.busWrRsvd001 (o : BusOperands) : CodeFits.Statement (.busWrRsvd001 o) :=
  codeFits_of_ble rfl

theorem CodeFits.busWrRsvd011 (o : BusOperands) : CodeFits.Statement (.busWrRsvd011 o) :=
  codeFits_of_ble rfl

theorem CodeFits.busWrRsvd100 (o : BusOperands) : CodeFits.Statement (.busWrRsvd100 o) :=
  codeFits_of_ble rfl

theorem CodeFits.busWrRsvd101 (o : BusOperands) : CodeFits.Statement (.busWrRsvd101 o) :=
  codeFits_of_ble rfl

theorem CodeFits.busWrRsvd110 (o : BusOperands) : CodeFits.Statement (.busWrRsvd110 o) :=
  codeFits_of_ble rfl

theorem CodeFits.csrWrStartAddress (e : EngineId) (v : Word) : CodeFits.Statement (.csrWrStartAddress e v) :=
  codeFits_of_ble rfl

theorem CodeFits.csrWrTransferSize (e : EngineId) (v : Word) : CodeFits.Statement (.csrWrTransferSize e v) :=
  codeFits_of_ble rfl

theorem CodeFits.csrWrBurstSize (e : EngineId) (v : Word) : CodeFits.Statement (.csrWrBurstSize e v) :=
  codeFits_of_ble rfl

theorem CodeFits.csrWrDone (e : EngineId) (v : Word) : CodeFits.Statement (.csrWrDone e v) :=
  codeFits_of_ble rfl

theorem CodeFits.csrWrEnable (e : EngineId) (v : Word) : CodeFits.Statement (.csrWrEnable e v) :=
  codeFits_of_ble rfl

theorem CodeFits.csrWrReset (e : EngineId) (v : Word) : CodeFits.Statement (.csrWrReset e v) :=
  codeFits_of_ble rfl

theorem CodeFits.csrWrUndef (e : EngineId) (idx : BitVec 3) (v : Word) : CodeFits.Statement (.csrWrUndef e idx v) := by
  have := idx.isLt
  show 8 + idx.toNat < 16
  omega

theorem CodeFits.csrRdStartAddress (e : EngineId) : CodeFits.Statement (.csrRdStartAddress e) :=
  codeFits_of_ble rfl

theorem CodeFits.csrRdTransferSize (e : EngineId) : CodeFits.Statement (.csrRdTransferSize e) :=
  codeFits_of_ble rfl

theorem CodeFits.csrRdBurstSize (e : EngineId) : CodeFits.Statement (.csrRdBurstSize e) :=
  codeFits_of_ble rfl

theorem CodeFits.csrRdDone (e : EngineId) : CodeFits.Statement (.csrRdDone e) :=
  codeFits_of_ble rfl

theorem CodeFits.csrRdEnable (e : EngineId) : CodeFits.Statement (.csrRdEnable e) :=
  codeFits_of_ble rfl

theorem CodeFits.csrRdReset (e : EngineId) : CodeFits.Statement (.csrRdReset e) :=
  codeFits_of_ble rfl

theorem CodeFits.csrRdUndef (e : EngineId) (idx : BitVec 3) : CodeFits.Statement (.csrRdUndef e idx) := by
  have := idx.isLt
  show idx.toNat < 16
  omega

theorem CodeFits.dlyLoad (move dir : Bool) : CodeFits.Statement (.dlyLoad move dir) := by
  cases move <;> cases dir <;> exact codeFits_of_ble rfl

theorem CodeFits.dlyInc : CodeFits.Statement .dlyInc :=
  codeFits_of_ble rfl

theorem CodeFits.dlyDec : CodeFits.Statement .dlyDec :=
  codeFits_of_ble rfl

theorem CodeFits.dlyHold (dir : Bool) : CodeFits.Statement (.dlyHold dir) := by
  cases dir <;> exact codeFits_of_ble rfl

theorem CodeFits.fsmIdle : CodeFits.Statement .fsmIdle :=
  codeFits_of_ble rfl

theorem CodeFits.fsmCmd : CodeFits.Statement .fsmCmd :=
  codeFits_of_ble rfl

theorem CodeFits.fsmRwdsWait : CodeFits.Statement .fsmRwdsWait :=
  codeFits_of_ble rfl

theorem CodeFits.fsmReadStart : CodeFits.Statement .fsmReadStart :=
  codeFits_of_ble rfl

theorem CodeFits.fsmReadAck : CodeFits.Statement .fsmReadAck :=
  codeFits_of_ble rfl

theorem CodeFits.fsmReadBurst : CodeFits.Statement .fsmReadBurst :=
  codeFits_of_ble rfl

theorem CodeFits.fsmLatencyWrite : CodeFits.Statement .fsmLatencyWrite :=
  codeFits_of_ble rfl

theorem CodeFits.fsmWPrep : CodeFits.Statement .fsmWPrep :=
  codeFits_of_ble rfl

theorem CodeFits.fsmWriteBurst : CodeFits.Statement .fsmWriteBurst :=
  codeFits_of_ble rfl

theorem CodeFits.fsmWriteFinish : CodeFits.Statement .fsmWriteFinish :=
  codeFits_of_ble rfl

theorem CodeFits.fsmTimeout : CodeFits.Statement .fsmTimeout :=
  codeFits_of_ble rfl

theorem CodeFits.fsmCleanup : CodeFits.Statement .fsmCleanup :=
  codeFits_of_ble rfl

theorem CodeFits.engIdle (e : EngineId) : CodeFits.Statement (.engIdle e) :=
  codeFits_of_ble rfl

theorem CodeFits.engActive (e : EngineId) : CodeFits.Statement (.engActive e) :=
  codeFits_of_ble rfl

theorem CodeFits.strmXfer (e : EngineId) (data : Word) : CodeFits.Statement (.strmXfer e data) :=
  codeFits_of_ble rfl

theorem CodeFits.strmUnderflow (e : EngineId) (data : Word) : CodeFits.Statement (.strmUnderflow e data) :=
  codeFits_of_ble rfl

theorem CodeFits.strmOverflow (e : EngineId) (data : Word) : CodeFits.Statement (.strmOverflow e data) :=
  codeFits_of_ble rfl

theorem CodeFits.strmIdle (e : EngineId) (data : Word) : CodeFits.Statement (.strmIdle e data) :=
  codeFits_of_ble rfl

theorem CodeFits.cdcwReset (q : Nat) (valid ready : Bool) (data : Nat) : CodeFits.Statement (.cdcwReset q valid ready data) := by
  cases valid <;> cases ready <;> exact codeFits_of_ble rfl

theorem CodeFits.cdcwPush (q : Nat) (data : Nat) : CodeFits.Statement (.cdcwPush q data) :=
  codeFits_of_ble rfl

theorem CodeFits.cdcwStall (q : Nat) (data : Nat) : CodeFits.Statement (.cdcwStall q data) :=
  codeFits_of_ble rfl

theorem CodeFits.cdcwIdle (q : Nat) (ready : Bool) (data : Nat) : CodeFits.Statement (.cdcwIdle q ready data) := by
  cases ready <;> exact codeFits_of_ble rfl

theorem CodeFits.cdcrReset (q : Nat) (valid ready : Bool) : CodeFits.Statement (.cdcrReset q valid ready) := by
  cases valid <;> cases ready <;> exact codeFits_of_ble rfl

theorem CodeFits.cdcrPop (q : Nat) : CodeFits.Statement (.cdcrPop q) :=
  codeFits_of_ble rfl

theorem CodeFits.cdcrWait (q : Nat) : CodeFits.Statement (.cdcrWait q) :=
  codeFits_of_ble rfl

theorem CodeFits.cdcrEmpty (q : Nat) (ready : Bool) : CodeFits.Statement (.cdcrEmpty q ready) := by
  cases ready <;> exact codeFits_of_ble rfl

theorem CodeFits.phyShiftout (w : Word) (m : BitVec 4) : CodeFits.Statement (.phyShiftout w m) :=
  codeFits_of_ble rfl

theorem CodeFits.phyIdle : CodeFits.Statement .phyIdle :=
  codeFits_of_ble rfl

theorem CodeFits.phySamplein (p : Unit) : CodeFits.Statement (.phySamplein p) :=
  codeFits_of_ble rfl

theorem CodeFits.dmaStartLocal (e : EngineId) : CodeFits.Statement (.dmaStartLocal e) :=
  codeFits_of_ble rfl

theorem CodeFits.dmaStartExt (e : EngineId) : CodeFits.Statement (.dmaStartExt e) :=
  codeFits_of_ble rfl

theorem CodeFits.pulseSend (x : Nat) (pulse : Bool) : CodeFits.Statement (.pulseSend x pulse) :=
  codeFits_of_ble rfl

theorem CodeFits.pulseSync (x : Nat) : CodeFits.Statement (.pulseSync x) :=
  codeFits_of_ble rfl

theorem CodeFits.sysReset : CodeFits.Statement .sysReset :=
  codeFits_of_ble rfl

end Sys2Proof.Laws
end

