-- ==== Sys2Proof/Tests/Slice0.lean ====
section
/-! SUPPORT. Tests: ill-formed terms refused, words written out from the encoding tables decoded, small single steps with
the results that `95_test_vectors.md` gives, and for every statement with hypotheses a case that meets them. -/

namespace Sys2Proof.Tests
open Sys2Proof Sys2Proof.Machine

/-! ### Helpers -/

/-- The next state has this property. -/
def gives (o : Host.Outcome State Fault Refusal) (p : State → Bool) : Bool :=
  match o with
  | .next t => p t
  | .fault _ => false
  | .refused _ => false

/-- The outcome is this refusal. -/
def refuses (o : Host.Outcome State Fault Refusal) (r : Refusal) : Bool :=
  match o with
  | .next _ => false
  | .fault _ => false
  | .refused x => x == r

/-- The outcome is this fault. -/
def faults (o : Host.Outcome State Fault Refusal) (r : Fault) : Bool :=
  match o with
  | .next _ => false
  | .fault x => x == r
  | .refused _ => false

/-- The decoder answers this operation. -/
def decodes (w : OpWord) (i : Instr) : Bool :=
  match decode w with
  | .ok j => j == i
  | .error _ => false

/-- The decoder rejects with this name. -/
def rejects (w : OpWord) (e : DecodeError) : Bool :=
  match decode w with
  | .ok _ => false
  | .error x => x == e

/-- Some cycles after reset: the protocol FSM in a state, the strobe's last sample low, the device released. -/
def inState (x : FsmState) : State :=
  { State.reset with fsm := { Fsm.reset with state := x, strobeLast := false, devRst := false } }

/-- The state with these strobe samples and this sampled word in the PHY's input register. -/
def sampled (strobe : BitVec 4) (word : Word) (s : State) : State :=
  { s with phy := { s.phy with rxStrobe := strobe, rxWord := word } }

/-- The state with the phase counter at `n`. -/
def phase (n : BitVec 8) (s : State) : State :=
  { s with fsm := { s.fsm with phaseCnt := n } }

/-- The state with `n` words acknowledged in the window and this hint. -/
def burst (n : BitVec 10) (hint : Bool) (s : State) : State :=
  { s with fsm := { s.fsm with burstCnt := n, contHint := hint } }

/-- The state with this command word stored. -/
def command (ca : CommandWord) (s : State) : State :=
  { s with fsm := { s.fsm with ca := ca } }

/-- The state with a request of the external master on the lines. -/
def asking (we : Bool) (adr : BitVec 32) (datW : Word) (sel : BitVec 4) (cti : BitVec 3) (s : State) : State :=
  { s with inp := { s.inp with bus := ⟨true, true, we, sel, adr, datW, cti⟩ } }

/-- The state with a writer engine of these registers. -/
def writerIs (g : Engine) (s : State) : State :=
  { s with writer := g }

/-- The state with a reader engine of these registers. -/
def readerIs (g : Engine) (s : State) : State :=
  { s with reader := g }

/-- An engine with these sizes, otherwise as after reset. -/
def sized (transfer size : Word) : Engine :=
  { Engine.reset with transferSize := transfer, burstSize := size }

/-- An engine in the middle of a transfer. -/
def running (transfer size : Word) (wc bw : BitVec 32) : Engine :=
  { Engine.reset with
    transferSize := transfer, burstSize := size, enabled := true, busy := true, est := .active
    wordCnt := wc, bwordCnt := bw }

/-- The state with the arbiter at engine `e`. -/
def grantTo (e : EngineId) (s : State) : State :=
  { s with inp := { s.inp with grant := .engine e } }

/-- The state with a partner at an engine's port. -/
def partner (e : EngineId) (on : Bool) (data : Word) (s : State) : State :=
  s.putPartner e on data

/-- Four beats as the pins carry them. -/
def beats (b0 b1 b2 b3 : Byte) : Pins :=
  ⟨b0, b1, b2, b3, true, false, true, false⟩

/-- A read window that has just opened. -/
def openedWindow : State :=
  { inState .cmd with
    fsm := { (inState .cmd).fsm with ca := 0xA00000010002, cs := true, clkEn := true, dqOe := true } }

/-- A queue of depth 4 and width 8 in a foreign write domain, with these pointers and stages. -/
def foreignQueue (w r w1 w2 r1 r2 : Nat) : Queue :=
  { Queue.powerOn ⟨0, 2, 8, .read, .sensorReceive⟩ with wptr := w, rptr := r, rptrW1 := w1, rptrW2 := w2, wptrR1 := r1, wptrR2 := r2 }

/-- The same in a foreign read domain, with four entries written. -/
def foreignReader (w r w1 w2 r1 r2 : Nat) : Queue :=
  { Queue.powerOn ⟨0, 2, 8, .write, .videoPixel⟩ with
    mem := [(0, 0xA0), (1, 0xA1), (2, 0xA2), (3, 0xA3)]
    wptr := w, rptr := r, rptrW1 := w1, rptrW2 := w2, wptrR1 := r1, wptrR2 := r2 }

/-- The state that the shortest clean flush leaves: both sides still in reset, everything 0. -/
def flushed : Flush :=
  ⟨true, true, true, 2, 2, false, false, 2⟩

/-- The queue with this progress of a flush. -/
def flushedTo (f : Flush) (q : Queue) : Queue :=
  { q with flush := f }

/-- The reset state with this queue as its only one. -/
def withQueue (q : Queue) : State :=
  { State.reset with queues := [q] }

/-- The queue of a state with one queue has this property. -/
def queueIs (t : State) (p : Queue → Bool) : Bool :=
  match t.queues with
  | [q] => p q
  | _ => false

/-- The reset state with this crossing as its only one. -/
def withCrossing (c : Crossing) : State :=
  { State.reset with crossings := [c] }

/-! ### Well-formedness: a term for each check, which the check refuses -/

theorem test_wellFormed_refuses_write_of_defined_index : (Instr.csrWrUndef .writer 5 0).WellFormed = false := by decide

theorem test_wellFormed_refuses_read_of_defined_index : (Instr.csrRdUndef .reader 0).WellFormed = false := by decide

/-! ### Decoding: words written out from `30_encoding.md`, bit by bit; every constructor once -/

/-- `30_encoding.md` R81: direction, 0, burst type, ten zeros, `ROWCOL`, thirteen zeros, `COLLO`, 0. -/
theorem test_decode_ca :
    decodes ⟨.ca, 0b1_0_1_0000000000_1010101111001101111_0000000000000_10_0, .none⟩ (.caRd 0x55E6F 2) = true ∧
    decodes ⟨.ca, 0b0_0_1_0000000000_0000000000000000001_0000000000000_01_0, .none⟩ (.caWr 1 1) = true ∧
    rejects ⟨.ca, 0b1_1_1_0000000000_0000000000000000001_0000000000000_01_0, .none⟩ .notACommandWord = true ∧
    rejects ⟨.ca, 0b1_0_0_0000000000_0000000000000000001_0000000000000_01_0, .none⟩ .notACommandWord = true ∧
    rejects ⟨.ca, 0b1_0_1_0000000000_0000000000000000001_0000000000000_01_1, .none⟩ .notACommandWord = true ∧
    rejects ⟨.ca, 2 ^ 48, .none⟩ .codeTooWide = true := by decide

/-- `30_encoding.md` R85 to R87: request, write enable, three bits of cycle type; reads. -/
theorem test_decode_bus_reads :
    decodes ⟨.bus, 0b0_1_101, .none⟩ (.busNop true 5) = true ∧
    decodes ⟨.bus, 0b1_0_000, .bus ⟨5, 15, 0⟩⟩ (.busRdClassic ⟨5, 15, 0⟩) = true ∧
    decodes ⟨.bus, 0b1_0_010, .bus ⟨5, 15, 0⟩⟩ (.busRdBurst ⟨5, 15, 0⟩) = true ∧
    decodes ⟨.bus, 0b1_0_111, .bus ⟨5, 15, 0⟩⟩ (.busRdEnd ⟨5, 15, 0⟩) = true ∧
    decodes ⟨.bus, 0b1_0_001, .bus ⟨5, 15, 0⟩⟩ (.busRdRsvd001 ⟨5, 15, 0⟩) = true ∧
    decodes ⟨.bus, 0b1_0_011, .bus ⟨5, 15, 0⟩⟩ (.busRdRsvd011 ⟨5, 15, 0⟩) = true ∧
    decodes ⟨.bus, 0b1_0_100, .bus ⟨5, 15, 0⟩⟩ (.busRdRsvd100 ⟨5, 15, 0⟩) = true ∧
    decodes ⟨.bus, 0b1_0_101, .bus ⟨5, 15, 0⟩⟩ (.busRdRsvd101 ⟨5, 15, 0⟩) = true ∧
    decodes ⟨.bus, 0b1_0_110, .bus ⟨5, 15, 0⟩⟩ (.busRdRsvd110 ⟨5, 15, 0⟩) = true ∧
    rejects ⟨.bus, 0b1_0_000, .none⟩ .wrongOperands = true ∧
    rejects ⟨.bus, 0b100000, .bus ⟨5, 15, 0⟩⟩ .codeTooWide = true := by decide

/-- `30_encoding.md` R85 to R87: writes. -/
theorem test_decode_bus_writes :
    decodes ⟨.bus, 0b1_1_000, .bus ⟨5, 3, 9⟩⟩ (.busWrClassic ⟨5, 3, 9⟩) = true ∧
    decodes ⟨.bus, 0b1_1_010, .bus ⟨5, 3, 9⟩⟩ (.busWrBurst ⟨5, 3, 9⟩) = true ∧
    decodes ⟨.bus, 0b1_1_111, .bus ⟨5, 3, 9⟩⟩ (.busWrEnd ⟨5, 3, 9⟩) = true ∧
    decodes ⟨.bus, 0b1_1_001, .bus ⟨5, 3, 9⟩⟩ (.busWrRsvd001 ⟨5, 3, 9⟩) = true ∧
    decodes ⟨.bus, 0b1_1_011, .bus ⟨5, 3, 9⟩⟩ (.busWrRsvd011 ⟨5, 3, 9⟩) = true ∧
    decodes ⟨.bus, 0b1_1_100, .bus ⟨5, 3, 9⟩⟩ (.busWrRsvd100 ⟨5, 3, 9⟩) = true ∧
    decodes ⟨.bus, 0b1_1_101, .bus ⟨5, 3, 9⟩⟩ (.busWrRsvd101 ⟨5, 3, 9⟩) = true ∧
    decodes ⟨.bus, 0b1_1_110, .bus ⟨5, 3, 9⟩⟩ (.busWrRsvd110 ⟨5, 3, 9⟩) = true := by decide

/-- `30_encoding.md` R90, R94: write flag, three bits of register index; writes. -/
theorem test_decode_csr_writes :
    decodes ⟨.csr .writer, 0b1_000, .data 7⟩ (.csrWrStartAddress .writer 7) = true ∧
    decodes ⟨.csr .reader, 0b1_001, .data 7⟩ (.csrWrTransferSize .reader 7) = true ∧
    decodes ⟨.csr .writer, 0b1_010, .data 7⟩ (.csrWrBurstSize .writer 7) = true ∧
    decodes ⟨.csr .writer, 0b1_011, .data 7⟩ (.csrWrDone .writer 7) = true ∧
    decodes ⟨.csr .reader, 0b1_100, .data 7⟩ (.csrWrEnable .reader 7) = true ∧
    decodes ⟨.csr .writer, 0b1_101, .data 7⟩ (.csrWrReset .writer 7) = true ∧
    decodes ⟨.csr .writer, 0b1_110, .data 7⟩ (.csrWrUndef .writer 6 7) = true ∧
    decodes ⟨.csr .reader, 0b1_111, .data 7⟩ (.csrWrUndef .reader 7 7) = true ∧
    rejects ⟨.csr .reader, 0b10000, .data 7⟩ .codeTooWide = true := by decide

/-- `30_encoding.md` R90, R94: reads. -/
theorem test_decode_csr_reads :
    decodes ⟨.csr .writer, 0b0_000, .none⟩ (.csrRdStartAddress .writer) = true ∧
    decodes ⟨.csr .reader, 0b0_001, .none⟩ (.csrRdTransferSize .reader) = true ∧
    decodes ⟨.csr .writer, 0b0_010, .none⟩ (.csrRdBurstSize .writer) = true ∧
    decodes ⟨.csr .reader, 0b0_011, .none⟩ (.csrRdDone .reader) = true ∧
    decodes ⟨.csr .writer, 0b0_100, .none⟩ (.csrRdEnable .writer) = true ∧
    decodes ⟨.csr .writer, 0b0_101, .none⟩ (.csrRdReset .writer) = true ∧
    decodes ⟨.csr .writer, 0b0_110, .none⟩ (.csrRdUndef .writer 6) = true ∧
    decodes ⟨.csr .reader, 0b0_111, .none⟩ (.csrRdUndef .reader 7) = true ∧
    rejects ⟨.csr .reader, 0b0_000, .data 7⟩ .wrongOperands = true := by decide

/-- `30_encoding.md` R95: load, move, direction. -/
theorem test_decode_dly :
    decodes ⟨.dly, 0b100, .none⟩ (.dlyLoad false false) = true ∧
    decodes ⟨.dly, 0b111, .none⟩ (.dlyLoad true true) = true ∧
    decodes ⟨.dly, 0b010, .none⟩ .dlyInc = true ∧
    decodes ⟨.dly, 0b011, .none⟩ .dlyDec = true ∧
    decodes ⟨.dly, 0b001, .none⟩ (.dlyHold true) = true := by decide

/-- `30_encoding.md` R96: the twelve states, and the four codes that are none. -/
theorem test_decode_fsm :
    decodes ⟨.fsm, 0b0000, .none⟩ .fsmIdle = true ∧
    decodes ⟨.fsm, 0b0001, .none⟩ .fsmCmd = true ∧
    decodes ⟨.fsm, 0b0010, .none⟩ .fsmRwdsWait = true ∧
    decodes ⟨.fsm, 0b0011, .none⟩ .fsmReadStart = true ∧
    decodes ⟨.fsm, 0b0100, .none⟩ .fsmReadAck = true ∧
    decodes ⟨.fsm, 0b0101, .none⟩ .fsmReadBurst = true ∧
    decodes ⟨.fsm, 0b0110, .none⟩ .fsmLatencyWrite = true ∧
    decodes ⟨.fsm, 0b0111, .none⟩ .fsmWPrep = true ∧
    decodes ⟨.fsm, 0b1000, .none⟩ .fsmWriteBurst = true ∧
    decodes ⟨.fsm, 0b1001, .none⟩ .fsmWriteFinish = true ∧
    decodes ⟨.fsm, 0b1010, .none⟩ .fsmTimeout = true ∧
    decodes ⟨.fsm, 0b1011, .none⟩ .fsmCleanup = true ∧
    rejects ⟨.fsm, 0b1100, .none⟩ .noSuchState = true ∧
    rejects ⟨.fsm, 0b1111, .none⟩ .noSuchState = true := by decide

/-- `30_encoding.md` R97 and R89: the engine's states; valid, ready. -/
theorem test_decode_eng_and_strm :
    decodes ⟨.eng .writer, 0b0, .none⟩ (.engIdle .writer) = true ∧
    decodes ⟨.eng .reader, 0b1, .none⟩ (.engActive .reader) = true ∧
    decodes ⟨.strm .reader, 0b11, .data 4⟩ (.strmXfer .reader 4) = true ∧
    decodes ⟨.strm .writer, 0b10, .data 4⟩ (.strmUnderflow .writer 4) = true ∧
    decodes ⟨.strm .writer, 0b01, .data 4⟩ (.strmOverflow .writer 4) = true ∧
    decodes ⟨.strm .reader, 0b00, .data 4⟩ (.strmIdle .reader 4) = true := by decide

/-- `30_encoding.md` R102: side reset, valid, ready. -/
theorem test_decode_cdc :
    decodes ⟨.cdcw 1, 0b1_0_1, .payload 9⟩ (.cdcwReset 1 false true 9) = true ∧
    decodes ⟨.cdcw 1, 0b0_1_1, .payload 9⟩ (.cdcwPush 1 9) = true ∧
    decodes ⟨.cdcw 1, 0b0_1_0, .payload 9⟩ (.cdcwStall 1 9) = true ∧
    decodes ⟨.cdcw 1, 0b0_0_1, .payload 9⟩ (.cdcwIdle 1 true 9) = true ∧
    decodes ⟨.cdcr 0, 0b1_1_0, .none⟩ (.cdcrReset 0 true false) = true ∧
    decodes ⟨.cdcr 0, 0b0_1_1, .none⟩ (.cdcrPop 0) = true ∧
    decodes ⟨.cdcr 0, 0b0_1_0, .none⟩ (.cdcrWait 0) = true ∧
    decodes ⟨.cdcr 0, 0b0_0_0, .none⟩ (.cdcrEmpty 0 false) = true := by decide

/-- `30_encoding.md` R103: events have no pattern. -/
theorem test_decode_evt :
    decodes ⟨.evt .shiftOut, 0, .call 0xA0000001 0⟩ (.phyShiftout 0xA0000001 0) = true ∧
    decodes ⟨.evt .phyIdle, 0, .none⟩ .phyIdle = true ∧
    decodes ⟨.evt .sampleIn, 0, .none⟩ (.phySamplein ()) = true ∧
    decodes ⟨.evt (.startLocal .writer), 0, .none⟩ (.dmaStartLocal .writer) = true ∧
    decodes ⟨.evt (.startExt .reader), 0, .none⟩ (.dmaStartExt .reader) = true ∧
    decodes ⟨.evt (.pulseSend 1), 0, .level true⟩ (.pulseSend 1 true) = true ∧
    decodes ⟨.evt (.pulseSync 1), 0, .none⟩ (.pulseSync 1) = true ∧
    decodes ⟨.evt .sysReset, 0, .none⟩ .sysReset = true ∧
    rejects ⟨.evt .sysReset, 1, .none⟩ .eventWithCode = true := by decide

/-- The words of spec/opcode_table.json as the host numbers them. -/
theorem test_decodeTableWord :
    decodeTableWord 48 0xA00000010002 = some (.caRd 1 1) ∧ decodeTableWord 8 0x12 = some (.busRdBurst ⟨0, 0, 0⟩) ∧
    decodeTableWord 8 0x0C = some (.csrWrEnable .writer 0) ∧ decodeTableWord 3 0b011 = some .dlyDec ∧
    decodeTableWord 48 0 = none := by decide

/-- The placed word is what the next step fetches and runs. -/
theorem test_withFetchWord :
    gives (step (State.reset.withFetchWord 48 0xA00000010002)) (fun t => t.fsm.ca == 0xA00000010002) = true ∧
    gives (step (State.reset.withFetchWord 8 0x0C)) (fun t => t.writer.enabled) = true := by decide

/-! ### Command words (`95_test_vectors.md` section 2.1) -/

theorem test_encodeCommand :
    encodeCommand 0x0ABCDE true = 0x2002AF370004 ∧ encodeCommand 0x1FFFFF false = 0xA007FFFF0006 ∧
    encodeCommand 0x200005 true = 0x200000010002 := by decide

/-- The first word goes out (V20's word), and nothing is stored where the FSM does not look. -/
theorem test_caRd :
    gives (exec (.caRd 0x48D15 2) (inState .idle))
      (fun t => t.fsm.ca == 0xA0048D150004 && t.phy.txWord == 0xA0048D15 && t.phy.txValid && t.fsm.state == .cmd) = true ∧
    gives (exec (.caRd 1 1) (command 0x200000080000 (inState .latencyWrite)))
      (fun t => t.fsm.ca == 0x200000080000) = true := by decide

theorem test_caWr :
    gives (exec (.caWr 0x2AF37 2) (inState .idle))
      (fun t => t.fsm.ca == 0x2002AF370004 && t.phy.txWord == 0x2002AF37 && t.fsm.dqOe) = true := by decide

/-! ### Bus requests (V20, V32, V33, V41 to V43, V60, V61) -/

theorem test_busNop :
    gives (exec (.busNop true 2) (inState .idle)) (fun t => t.fsm.state == .idle && !t.fsm.cs) = true ∧
    gives (exec (.busNop true 2) (inState .readAck)) (fun t => t.fsm.contHint == false) = true := by decide

theorem test_busRdClassic :
    gives (exec (.busRdClassic ⟨5, 15, 0⟩) (inState .idle))
      (fun t => t.fsm.state == .cmd && t.fsm.ca == 0xA00000010002 && t.phy.txWord == 0xA0000001 && t.phy.txMask == 0 &&
        t.fsm.cs && t.fsm.clkEn && t.fsm.dqOe && !t.fsm.rwdsOe) = true := by decide

theorem test_busRdBurst :
    gives (exec (.busRdBurst ⟨5, 15, 0⟩) (inState .readAck))
      (fun t => t.fsm.state == .readBurst && t.fsm.burstCnt == 1 && t.fsm.contHint && t.out.ack) = true := by decide

theorem test_busRdEnd :
    gives (exec (.busRdEnd ⟨5, 15, 0⟩) (inState .readAck)) (fun t => !t.fsm.contHint && t.fsm.burstCnt == 1) = true := by
  decide

theorem test_busRdRsvd :
    gives (exec (.busRdRsvd001 ⟨5, 15, 0⟩) (inState .readAck)) (fun t => !t.fsm.contHint) = true ∧
    gives (exec (.busRdRsvd011 ⟨5, 15, 0⟩) (inState .readAck)) (fun t => !t.fsm.contHint) = true ∧
    gives (exec (.busRdRsvd100 ⟨5, 15, 0⟩) (inState .readAck)) (fun t => !t.fsm.contHint) = true ∧
    gives (exec (.busRdRsvd101 ⟨5, 15, 0⟩) (inState .readAck)) (fun t => !t.fsm.contHint) = true ∧
    gives (exec (.busRdRsvd110 ⟨5, 15, 0⟩) (inState .idle)) (fun t => t.fsm.ca == 0xA00000010002) = true := by decide

theorem test_busWrClassic :
    gives (exec (.busWrClassic ⟨0x100, 15, 0x11223344⟩) (inState .wPrep))
      (fun t => t.fsm.state == .writeBurst && t.phy.txWord == 0x11223344 && t.phy.txMask == 0 && t.phy.txValid &&
        t.fsm.burstCnt == 1 && !t.fsm.contHint && t.out.ack) = true := by decide

/-- V42, and the bytes a word-faithful device stores (`95_test_vectors.md` P4). -/
theorem test_busWrBurst :
    gives (exec (.busWrBurst ⟨0x21, 0b0011, 0xB1B1B1B1⟩) (burst 1 true (command 0x200000080000 (inState .wPrep))))
      (fun t => t.phy.txMask == 0b1100 && t.fsm.contHint &&
        t.devMem == [(2 * 0x43, 0xB1), (2 * 0x43 + 1, 0xB1)]) = true := by decide

theorem test_busWrEnd :
    gives (exec (.busWrEnd ⟨0x1FFFFF, 15, 0⟩) (inState .idle)) (fun t => t.fsm.ca == 0x2007FFFF0006) = true := by decide

theorem test_busWrRsvd :
    gives (exec (.busWrRsvd001 ⟨5, 0, 9⟩) (inState .wPrep))
      (fun t => !t.fsm.contHint && t.phy.txMask == 15 && t.devMem == []) = true ∧
    gives (exec (.busWrRsvd011 ⟨5, 15, 0⟩) (inState .wPrep)) (fun t => !t.fsm.contHint) = true ∧
    gives (exec (.busWrRsvd100 ⟨5, 15, 0⟩) (inState .wPrep)) (fun t => !t.fsm.contHint) = true ∧
    gives (exec (.busWrRsvd101 ⟨5, 15, 0⟩) (inState .wPrep)) (fun t => !t.fsm.contHint) = true ∧
    gives (exec (.busWrRsvd110 ⟨5, 15, 0⟩) (inState .idle)) (fun t => t.fsm.ca == 0x200000010002) = true := by decide

/-! ### The register surface (V66 to V74) -/

theorem test_csrWr_configuration :
    gives (exec (.csrWrStartAddress .writer 0x12345677) State.reset)
      (fun t => t.writer.startAddress == 0x12345677 && t.reader.startAddress == 0) = true ∧
    gives (exec (.csrWrTransferSize .reader 0xFFFFFFFF) State.reset)
      (fun t => t.reader.transferSize == 0xFFFFFFFF && t.writer.transferSize == 0) = true ∧
    gives (exec (.csrWrBurstSize .writer 8) State.reset)
      (fun t => t.writer.burstSize == 8 && t.reader.burstSize == 256) = true := by decide

theorem test_csrWr_ignored :
    gives (exec (.csrWrDone .writer 0xFFFFFFFF) State.reset) (fun t => t.writer == Engine.reset) = true ∧
    gives (exec (.csrWrDone .writer 0) (writerIs { Engine.reset with done := true } State.reset))
      (fun t => t.writer.done) = true ∧
    gives (exec (.csrWrUndef .reader 6 5) State.reset) (fun t => t.reader == Engine.reset) = true ∧
    gives (exec (.csrWrUndef .reader 7 5) State.reset) (fun t => t.reader == Engine.reset) = true := by decide

/-- V71 and V75: a zero size starts nothing, but the latch is set. -/
theorem test_csrWrEnable :
    gives (exec (.csrWrEnable .writer 0) (writerIs (sized 3 8) State.reset))
      (fun t => t.writer.enabled && t.writer.busy && t.writer.est == .idle && !t.writer.done) = true ∧
    gives (exec (.csrWrEnable .writer 1) State.reset) (fun t => t.writer.enabled && !t.writer.busy) = true := by decide

/-- V72, V74, V76: the reset wins over the flag in the cycle of the last acknowledgment. -/
theorem test_csrWrReset :
    gives (exec (.csrWrReset .reader 0)
        (partner .reader true 7 (grantTo .reader (readerIs (running 1 1 0 0) (inState .wPrep)))))
      (fun t => !t.reader.busy && !t.reader.done && !t.reader.enabled && t.reader.est == .idle &&
        t.reader.transferSize == 1 && t.out.reader.ready) = true := by decide

theorem test_csrRd :
    gives (exec (.csrRdStartAddress .writer) (writerIs { Engine.reset with startAddress := 0x12345677 } State.reset))
      (fun t => t.out.writer.csrData == 0x12345677) = true ∧
    gives (exec (.csrRdTransferSize .reader) (readerIs (sized 9 1) State.reset))
      (fun t => t.out.reader.csrData == 9) = true ∧
    gives (exec (.csrRdBurstSize .writer) State.reset) (fun t => t.out.writer.csrData == 0x100) = true ∧
    gives (exec (.csrRdDone .writer) (writerIs { Engine.reset with done := true } State.reset))
      (fun t => t.out.writer.csrData == 1) = true ∧
    gives (exec (.csrRdEnable .writer) (writerIs (running 3 3 0 0) State.reset))
      (fun t => t.out.writer.csrData == 0) = true ∧
    gives (exec (.csrRdReset .reader) State.reset) (fun t => t.out.reader.csrData == 0) = true ∧
    gives (exec (.csrRdUndef .reader 6) (readerIs (sized 9 1) State.reset)) (fun t => t.out.reader.csrData == 0) = true := by
  decide

/-! ### The delay tap (V7 to V11) -/

/-- The state with the tap at `n`. -/
def tapAt (n : Nat) : State :=
  { State.reset with phy := { Phy.reset with delayTap := n } }

theorem test_dly :
    gives (exec .dlyInc (tapAt 2)) (fun t => t.phy.delayTap == 3) = true ∧
    gives (exec .dlyInc (tapAt 127)) (fun t => t.phy.delayTap == 127) = true ∧
    gives (exec .dlyDec (tapAt 2)) (fun t => t.phy.delayTap == 1) = true ∧
    gives (exec .dlyDec (tapAt 0)) (fun t => t.phy.delayTap == 0) = true ∧
    gives (exec (.dlyLoad true true) (tapAt 55)) (fun t => t.phy.delayTap == 0) = true ∧
    gives (exec (.dlyHold true) (tapAt 55)) (fun t => t.phy.delayTap == 55) = true := by decide

/-! ### The protocol FSM (V19 to V49) -/

theorem test_fsmIdle :
    gives (exec .fsmIdle (asking false 5 0 15 0 (inState .idle)))
      (fun t => t.fsm.state == .cmd && t.fsm.ca == 0xA00000010002 && t.phy.txWord == 0xA0000001) = true ∧
    gives (exec .fsmIdle (burst 3 true (inState .idle)))
      (fun t => t.fsm.state == .idle && t.fsm.burstCnt == 0 && !t.fsm.contHint && t.phy.txMask == 15) = true := by decide

theorem test_fsmCmd :
    gives (exec .fsmCmd (command 0xA00000010002 (inState .cmd)))
      (fun t => t.fsm.state == .cmd && t.fsm.phaseCnt == 1 && t.phy.txWord == 0x00020000 && t.phy.txValid) = true ∧
    gives (exec .fsmCmd (phase 3 (command 0x200000010002 (inState .cmd))))
      (fun t => t.fsm.state == .latencyWrite && !t.fsm.dqOe && t.fsm.phaseCnt == 0 && !t.phy.txValid) = true := by decide

/-- V27 to V29. -/
theorem test_fsmRwdsWait :
    gives (exec .fsmRwdsWait (phase 40 (inState .rwdsWait))) (fun t => t.fsm.phaseCnt == 41) = true ∧
    gives (exec .fsmRwdsWait (phase 127 (inState .rwdsWait))) (fun t => t.fsm.state == .timeout) = true ∧
    gives (exec .fsmRwdsWait (sampled 0b1010 7 (phase 127 (inState .rwdsWait))))
      (fun t => t.fsm.state == .readStart && t.fsm.phaseCnt == 0 && t.fsm.readData == 0) = true := by decide

/-- V30, V31, V15. -/
theorem test_fsmReadStart :
    gives (exec .fsmReadStart (sampled 0b1010 0xDEADBEEF (inState .readStart)))
      (fun t => t.fsm.state == .readAck && t.fsm.readData == 0xDEADBEEF && !t.fsm.strobeLast) = true ∧
    gives (exec .fsmReadStart (sampled 0b0111 0xDEADBEEF (phase 127 (inState .readStart))))
      (fun t => t.fsm.state == .timeout && t.fsm.readData == 0 && t.fsm.strobeLast) = true := by decide

theorem test_fsmReadAck :
    gives (exec .fsmReadAck (asking false 0x11 0 15 0b010 (inState .readAck)))
      (fun t => t.fsm.state == .readBurst && t.fsm.burstCnt == 1 && t.fsm.contHint && t.out.ack) = true ∧
    gives (exec .fsmReadAck (asking false 0x11 0 15 0b111 (inState .readAck))) (fun t => !t.fsm.contHint) = true := by
  decide

/-- V34 to V36. -/
theorem test_fsmReadBurst :
    gives (exec .fsmReadBurst (sampled 0b1010 0x01020304 (burst 7 true (inState .readBurst))))
      (fun t => t.fsm.state == .readAck && t.fsm.readData == 0x01020304) = true ∧
    gives (exec .fsmReadBurst (sampled 0b1010 5 (burst 512 true (inState .readBurst))))
      (fun t => t.fsm.state == .idle && t.fsm.burstCnt == 0 && !t.fsm.contHint && !t.fsm.cs) = true := by decide

/-- V38 to V40. -/
theorem test_fsmLatencyWrite :
    gives (exec .fsmLatencyWrite (phase 9 (inState .latencyWrite)))
      (fun t => t.fsm.state == .latencyWrite && t.fsm.phaseCnt == 10) = true ∧
    gives (exec .fsmLatencyWrite (phase 10 (inState .latencyWrite)))
      (fun t => t.fsm.state == .wPrep && t.fsm.dqOe && t.fsm.rwdsOe && t.fsm.phaseCnt == 0) = true := by decide

/-- V41, V43. -/
theorem test_fsmWPrep :
    gives (exec .fsmWPrep (asking true 0x100 0x11223344 15 0 (command 0x200000400000 (inState .wPrep))))
      (fun t => t.fsm.state == .writeBurst && t.phy.txWord == 0x11223344 && t.out.ack &&
        t.devMem == [(0x400, 0x11), (0x401, 0x22), (0x402, 0x33), (0x403, 0x44)]) = true ∧
    gives (exec .fsmWPrep (asking true 0x100 0x11223344 0 0 (inState .wPrep)))
      (fun t => t.phy.txMask == 15 && t.phy.txValid && t.devMem == []) = true := by decide

/-- V44, V45. -/
theorem test_fsmWriteBurst :
    gives (exec .fsmWriteBurst (burst 3 true (inState .writeBurst))) (fun t => t.fsm.state == .wPrep) = true ∧
    gives (exec .fsmWriteBurst (burst 512 true (inState .writeBurst))) (fun t => t.fsm.state == .writeFinish) = true := by
  decide

theorem test_fsmWriteFinish :
    gives (exec .fsmWriteFinish
        { inState .writeFinish with fsm := { (inState .writeFinish).fsm with cs := true, clkEn := true, dqOe := true } })
      (fun t => t.fsm.state == .cleanup && !t.fsm.clkEn && t.fsm.cs && t.fsm.dqOe) = true := by decide

theorem test_fsmTimeout :
    gives (exec .fsmTimeout { inState .timeout with fsm := { (inState .timeout).fsm with cs := true, clkEn := true } })
      (fun t => t.fsm.state == .cleanup && t.out.ack && t.fsm.cs && t.fsm.clkEn && t.free == 1) = true := by decide

theorem test_fsmCleanup :
    gives (exec .fsmCleanup
        (burst 3 true { inState .cleanup with fsm := { (inState .cleanup).fsm with cs := true, dqOe := true, rwdsOe := true } }))
      (fun t => t.fsm == { Fsm.reset with strobeLast := false, devRst := false }) = true := by decide

/-! ### The engines (V77 to V82) and their streams (V83 to V89) -/

theorem test_engIdle :
    gives (exec (.engIdle .writer) (partner .writer true 0 (writerIs { running 3 8 0 5 with est := .idle } State.reset)))
      (fun t => t.writer.est == .active && t.writer.bwordCnt == 0) = true ∧
    gives (exec (.engIdle .reader) (readerIs { running 3 8 0 5 with est := .idle } State.reset))
      (fun t => t.reader.est == .idle && t.reader.bwordCnt == 5) = true := by decide

/-- V77, cycle 6, and V78, cycle 5. -/
theorem test_engActive :
    gives (exec (.engActive .writer) (grantTo .writer (writerIs (running 3 8 2 2) (inState .readAck))))
      (fun t => t.writer.est == .idle && !t.writer.busy && t.writer.done && t.writer.wordCnt == 0 &&
        t.out.writer.transferComplete) = true ∧
    gives (exec (.engActive .writer) (grantTo .writer (writerIs (running 5 2 1 1) (inState .readAck))))
      (fun t => t.writer.est == .idle && t.writer.busy && !t.writer.done && t.writer.wordCnt == 2 &&
        t.writer.bwordCnt == 0) = true := by decide

/-- V82: the word index of an engine's request; V67: bits 1:0 of the address are ignored. -/
theorem test_engineAdr :
    engineAdr { running 9 9 3 3 with startAddress := 0x403 } = 0x103 ∧
    engineAdr { running 9 9 1 1 with startAddress := 0x007FFFFC } = 0x200000 ∧
    engineAdr { running 9 9 0 0 with startAddress := 0x12345677 } = 0x048D159D := by decide

/-- V83, V84: valid is the engine's own level. -/
theorem test_strmXfer :
    gives (exec (.strmXfer .writer 0) (grantTo .writer (writerIs (running 3 8 0 0) (inState .readAck))))
      (fun t => t.out.writer.valid && t.out.writer.ready && !t.out.writer.overflow && !t.out.writer.underflow) = true := by
  decide

theorem test_strmUnderflow :
    gives (exec (.strmUnderflow .writer 0) (grantTo .writer (writerIs (running 3 8 0 0) (inState .readAck))))
      (fun t => t.out.writer.underflow && !t.out.writer.overflow && t.writer.wordCnt == 1) = true ∧
    gives (exec (.strmUnderflow .reader 5) (readerIs (running 3 8 0 0) (inState .idle)))
      (fun t => t.out.reader.underflow && t.out.reader.valid && !t.out.reader.ready) = true := by decide

/-- V86, V88: a stale word is written to memory. -/
theorem test_strmOverflow :
    gives (exec (.strmOverflow .writer 0) (inState .idle)) (fun t => t.out.writer.overflow) = true ∧
    gives (exec (.strmOverflow .reader 0x77) (grantTo .reader (readerIs (running 3 8 0 0) (inState .wPrep))))
      (fun t => t.out.reader.overflow && t.phy.txWord == 0x77) = true := by decide

theorem test_strmIdle :
    gives (exec (.strmIdle .reader 0) (inState .idle))
      (fun t => !t.out.reader.valid && !t.out.reader.ready && !t.out.reader.overflow && !t.out.reader.underflow) = true := by
  decide

/-- V75, V79: a local start, an external start without and with the latch. -/
theorem test_dmaStart :
    gives (exec (.dmaStartLocal .writer) (writerIs (sized 7 0) State.reset))
      (fun t => t.writer.enabled && !t.writer.busy) = true ∧
    gives (exec (.dmaStartExt .writer) (writerIs { sized 1 1 with enabled := true } State.reset))
      (fun t => !t.writer.busy) = true ∧
    gives (exec (.dmaStartExt .writer)
        (writerIs { sized 1 1 with enabled := true } { State.reset with params := { Params.default with extSyncWriter := true } }))
      (fun t => t.writer.busy) = true := by decide

/-! ### The PHY (V1 to V4) -/

theorem test_phyShiftout :
    gives (exec (.phyShiftout 0xA0000001 0) State.reset)
      (fun t => t.phy.txWord == 0xA0000001 && t.phy.txMask == 0 && t.phy.txValid && beatByte t.phy.txWord 0 == 0xA0 &&
        beatByte t.phy.txWord 3 == 1) = true := by decide

theorem test_phyIdle :
    gives (exec .phyIdle { State.reset with phy := { Phy.reset with txWord := 5, txMask := 0, txValid := true } })
      (fun t => t.phy.txWord == 0 && t.phy.txMask == 0b1111 && !t.phy.txValid) = true := by decide

/-- The environment's beats on lanes that the core does not drive, the core's own output on those it drives. -/
theorem test_phySamplein :
    gives (exec (.phySamplein ()) (State.reset.putPins (beats 0x12 0x34 0x56 0x78)))
      (fun t => t.phy.rxWord == 0x12345678 && t.phy.rxStrobe == 0b1010) = true ∧
    gives (exec (.phySamplein ())
        ({ State.reset with
            fsm := { Fsm.reset with dqOe := true }, phy := { Phy.reset with txWord := 0xA0000001 } }.putPins
          (beats 0x12 0x34 0x56 0x78)))
      (fun t => t.phy.rxWord == 0xA0000001 && t.phy.rxStrobe == 0b1010) = true := by decide

/-- R119: in a window in which the tap has been moved the samples are whatever the environment says, on driven lanes
too; the window's end ends that. -/
theorem test_windowDisturbed :
    gives (exec .dlyInc
        ({ State.reset with fsm := { Fsm.reset with cs := true, dqOe := true } }.putPins (beats 0x12 0x34 0x56 0x78)))
      (fun t => t.tapMoved && t.phy.rxWord == 0x12345678) = true ∧
    gives (exec (.dlyHold false) { State.reset with tapMoved := true }) (fun t => !t.tapMoved) = true := by decide

/-! ### Queues (V91 to V100) -/

theorem test_cdcwPush :
    gives (exec (.cdcwPush 0 0xD0) (withQueue (foreignQueue 0 0 0 0 0 0)))
      (fun t => queueIs t fun q => q.wptr == 1 && q.mem == [(0, 0xD0)] && q.accepted) = true ∧
    gives (exec (.cdcwPush 0 0xD0) (withQueue (foreignQueue 1 5 5 5 0 0)))
      (fun t => queueIs t fun q => q.wptr == 1 && q.mem == [] && !q.accepted) = true := by decide

theorem test_cdcwStall :
    gives (exec (.cdcwStall 0 0xD4) (withQueue (foreignQueue 4 1 0 0 4 4)))
      (fun t => queueIs t fun q => q.wptr == 4 && q.rptrW1 == 1 && q.rptrW2 == 0 && q.mem == []) = true := by decide

theorem test_cdcwReset :
    gives (exec (.cdcwReset 0 true false 9) (withQueue (foreignQueue 3 1 1 0 3 3)))
      (fun t => queueIs t fun q => q.wptr == 0 && q.rptrW1 == 1 && q.rptrW2 == 1 && q.mem == []) = true := by decide

theorem test_cdcwIdle :
    gives (exec (.cdcwIdle 0 true 9) (withQueue (foreignQueue 3 1 1 0 3 3)))
      (fun t => queueIs t fun q => q.wptr == 3 && q.rptrW2 == 1 && q.mem == []) = true := by decide

/-- V95, V96. -/
theorem test_cdcrPop :
    gives (exec (.cdcrPop 0) (withQueue (foreignReader 4 3 0 0 4 4)))
      (fun t => queueIs t fun q => q.rptr == 4 && q.popped == some 0xA3) = true ∧
    gives (exec (.cdcrPop 0) (withQueue (foreignReader 0 7 0 0 0 0)))
      (fun t => queueIs t fun q => q.rptr == 0 && q.popped == some 0xA3) = true := by decide

theorem test_cdcrWait :
    gives (exec (.cdcrWait 0) (withQueue (foreignReader 4 3 0 0 4 4)))
      (fun t => queueIs t fun q => q.rptr == 3 && q.popped == none) = true := by decide

/-- V94. -/
theorem test_cdcrEmpty :
    gives (exec (.cdcrEmpty 0 true) (withQueue (foreignReader 1 0 0 0 0 0)))
      (fun t => queueIs t fun q => q.wptrR1 == 1 && q.wptrR2 == 0 && q.rptr == 0 && q.popped == none) = true := by decide

theorem test_cdcrReset :
    gives (exec (.cdcrReset 0 false true) (withQueue (foreignReader 4 2 0 0 4 3)))
      (fun t => queueIs t fun q => q.rptr == 0 && q.wptrR2 == 4 && q.popped == none) = true := by decide

/-! ### Pulse crossings (V102, V105) and reset (V106 to V108) -/

theorem test_pulseSend :
    gives (exec (.pulseSend 0 true) (withCrossing (Crossing.powerOn .dest .videoPixel)))
      (fun t => t.crossings == [⟨.dest, .videoPixel, true, false, false, false, 0⟩]) = true ∧
    gives (exec (.pulseSend 0 false) (withCrossing (Crossing.powerOn .source .videoPixel)))
      (fun t => t.crossings == [Crossing.powerOn .source .videoPixel]) = true := by decide

theorem test_pulseSync :
    gives (exec (.pulseSync 0) (withCrossing ⟨.dest, .videoPixel, true, true, true, false, 0⟩))
      (fun t => t.crossings == [⟨.dest, .videoPixel, true, true, true, true, 4⟩]) = true ∧
    gives (exec (.pulseSync 0) (withCrossing ⟨.source, .videoPixel, true, true, true, true, 4⟩))
      (fun t => t.crossings == [⟨.source, .videoPixel, true, true, true, true, 3⟩]) = true := by decide

/-- One tick of a foreign domain moves every far end in it, each on its own lines, and no other: queue 0 and crossing 0
of the reset state are in the video-pixel domain, queue 1 and crossing 1 in the sensor-receive domain. -/
theorem test_domainTick :
    gives (exec (.pulseSend 0 true)
        ({ State.reset with
            queues := [foreignReader 4 3 0 0 4 4, foreignQueue 0 0 0 0 0 0]
          }.putFarQueue 0 ⟨false, false, true, 0⟩ |>.putFarQueue 1 ⟨false, true, false, 7⟩))
      (fun t => t.crossings == [⟨.dest, .videoPixel, true, false, false, false, 0⟩, Crossing.powerOn .dest .sensorReceive] &&
        (t.queues.map fun q => (q.wptr, q.rptr)) == [(4, 4), (0, 0)]) = true := by decide

/-- R268, R269: the read side runs too early after T; two more reset ticks of the write side make no clean flush: its
next running tick draws free values, and so does every later tick, until a flush begins anew. -/
theorem test_uncleanFlush :
    (queueRun [.write true false 0, .read true false, .read false false, .write true false 0, .write true false 0]
        (foreignQueue 0 0 0 0 0 0)).flush.unclean = true ∧
    (queueRun [.write true false 0, .read true false, .read false false, .write true false 0, .write true false 0,
        .write false false 0, .read false false] (foreignQueue 0 0 0 0 0 0)).generation = 3 ∧
    (queueRun [.write true false 0, .read true false, .read false false, .read true false, .write true false 0,
        .write true false 0, .read true false, .read true false, .write false false 0, .read false false]
        (foreignQueue 0 0 0 0 0 0)).generation = 1 := by decide

theorem test_sysReset :
    gives (exec .sysReset (writerIs (running 3 8 2 2) (burst 300 true (command 0x200000080000 (inState .writeBurst)))))
      (fun t => t.fsm == Fsm.reset && t.phy == Phy.reset && t.writer == Engine.reset) = true ∧
    gives (exec .fsmIdle State.reset) (fun t => !t.fsm.devRst) = true ∧
    gives (step { State.reset with script := [⟨{ Inputs.idle with bus := ⟨true, true, false, 15, 5, 0, 0⟩ }, none⟩] })
      (fun t => t.fsm.state == .cmd) = true := by decide

/-! ### For every statement with hypotheses, cases that meet them -/

theorem witness_DecodeOfEncode : (Instr.csrWrUndef .reader 6 0).WellFormed = true ∧ (Instr.csrRdUndef .writer 7).WellFormed = true := by
  decide

theorem witness_EncodeOfDecode : decode ⟨.dly, 0b110, .none⟩ = .ok (.dlyLoad true false) := rfl

theorem witness_StepRunsTheDecodedOperation :
    State.reset.legalBuild = true ∧ decode (fetch State.reset) = .ok .fsmIdle ∧
      selects .fsmIdle (nextCycle State.reset) = true ∧ State.reset.script = [] ∧
      ({ State.reset with script := [⟨Inputs.idle, some ⟨.dly, 2, .none⟩⟩] } : State).script =
        [⟨Inputs.idle, some ⟨.dly, 2, .none⟩⟩] := ⟨rfl, rfl, rfl, rfl, rfl⟩

/-- With an empty script, and with a cue that names no operation. -/
theorem witness_PlainCycleIsOneTick :
    (State.reset.legalBuild = true ∧ ∀ c rest, State.reset.script = c :: rest → c.op = none) ∧
    (∀ c rest, ({ State.reset with script := [⟨Inputs.idle, none⟩] } : State).script = c :: rest → c.op = none) := by
  refine ⟨⟨rfl, fun c rest h => by cases h⟩, fun c rest h => by cases h; rfl⟩

theorem witness_ResetOverridesEveryOperation :
    isSysOp .fsmCmd = true ∧ ({ State.reset with inp := { Inputs.idle with rst := true } } : State).inp.rst = true ∧
      isSysOp .sysReset = true ∧ (State.reset.queues[0]?.map fun q => q.cfg.sysSide) = some .write ∧
      (State.reset.queues[1]?.map fun q => q.cfg.sysSide) = some .read ∧
      ((withCrossing (Crossing.powerOn .source .videoPixel)).crossings[0]?.map fun c => c.sysSide) = some .source ∧
      (State.reset.crossings[0]?.map fun c => c.sysSide) = some .dest := by decide

theorem witness_DeviceResetReleasedOnce :
    (isSysOp .dlyInc = true ∧ State.reset.inp.rst = false ∧ Instr.dlyInc ≠ .sysReset) ∧
    ∃ t, exec .sysReset (inState .idle) = .next t ∧ (inState .idle).fsm.devRst = false ∧ t.fsm.devRst = true := by
  exact ⟨by decide, _, rfl, rfl, rfl⟩

/-- A request, and each line of it missing. -/
theorem witness_IdleTakesARequest :
    (inState .idle).inp.rst = false ∧ (inState .idle).fsm.state = .idle ∧
      (adapterIn (asking true 5 0 15 0 (inState .idle))).cyc = true ∧
      (adapterIn (asking true 5 0 15 0 (inState .idle))).stb = true ∧
      (adapterIn (inState .idle)).cyc = false ∧ (adapterIn (inState .idle)).stb = false := by decide

/-- The first, a middle and the last cycle of the command window. -/
theorem witness_CommandWindowLastsFourCycles :
    (inState .cmd).inp.rst = false ∧ (inState .cmd).fsm.state = .cmd ∧ (inState .cmd).fsm.phaseCnt = 0 ∧
      (phase 2 (inState .cmd)).fsm.phaseCnt.toNat < 3 ∧ (phase 2 (inState .cmd)).fsm.phaseCnt ≠ 0 ∧
      (phase 3 (inState .cmd)).fsm.phaseCnt.toNat = 3 := by decide

/-- Qualified in the 128th cycle, not qualified there, not qualified before. The responsive run is
`witness_StoredWordsReadBack`'s. -/
theorem witness_WaitsForTheStrobeAreBounded :
    (inState .rwdsWait).inp.rst = false ∧ (inState .rwdsWait).fsm.state = .rwdsWait ∧
      (inState .readStart).fsm.state = .readStart ∧
      qual (sampled 0b1010 7 (phase 127 (inState .rwdsWait))).fsm (sampled 0b1010 7 (phase 127 (inState .rwdsWait))).phy = true ∧
      qual (phase 127 (inState .rwdsWait)).fsm (phase 127 (inState .rwdsWait)).phy = false ∧
      (phase 126 (inState .readStart)).fsm.phaseCnt.toNat ≠ 127 := by decide

/-- At the ceiling and below it. -/
theorem witness_ReadWordsAreDelivered :
    (inState .readAck).inp.rst = false ∧ (inState .readAck).fsm.state = .readAck ∧
      (inState .readBurst).fsm.state = .readBurst ∧
      (burst 511 true (inState .readBurst)).fsm.burstCnt.toNat < 512 ∧
      ¬ (burst 512 true (inState .readBurst)).fsm.burstCnt.toNat < 512 := by decide

theorem witness_WriteWordsAreSent :
    (inState .wPrep).inp.rst = false ∧ (inState .wPrep).fsm.state = .wPrep ∧
      (inState .latencyWrite).fsm.state = .latencyWrite ∧
      (phase 10 (inState .latencyWrite)).fsm.phaseCnt.toNat < (inState .latencyWrite).params.writeLatency ∧
      (phase 10 (inState .latencyWrite)).fsm.phaseCnt.toNat + 1 = (inState .latencyWrite).params.writeLatency := by decide

theorem witness_WriteWindowEnds :
    (inState .writeBurst).inp.rst = false ∧ (inState .writeBurst).fsm.state = .writeBurst ∧
      (inState .writeFinish).fsm.state = .writeFinish := by decide

theorem witness_TimeoutAndCleanup :
    (inState .timeout).inp.rst = false ∧ (inState .timeout).fsm.state = .timeout ∧
      (inState .cleanup).fsm.state = .cleanup := by decide

/-- A window that opens, and one that runs. -/
theorem witness_CommandWordIsImmutable :
    (∃ t, exec .fsmIdle (asking false 5 0 15 0 (inState .idle)) = .next t ∧
      selects .fsmIdle (asking false 5 0 15 0 (inState .idle)) = true ∧
      (asking false 5 0 15 0 (inState .idle)).inp.rst = false ∧ t.fsm.ca ≠ (inState .idle).fsm.ca) ∧
    ∃ t, exec (.caRd 1 1) (inState .wPrep) = .next t ∧ selects (.caRd 1 1) (inState .wPrep) = true ∧
      (inState .wPrep).fsm.state ≠ .idle :=
  ⟨⟨_, rfl, by decide, by decide, by decide⟩, ⟨_, rfl, by decide, by decide⟩⟩

theorem witness_TimeoutIsDeliveredAndLeft :
    Inputs.idle.rst = false ∧ (phase 127 (inState .readStart)).fsm.state = .readStart ∧
      (phase 127 (inState .readStart)).fsm.phaseCnt.toNat = 127 ∧
      qual (phase 127 (inState .readStart)).fsm (phase 127 (inState .readStart)).phy = false := by decide

theorem witness_TimeoutOnlyAtTheBound :
    ∃ t, exec .fsmRwdsWait (phase 127 (inState .rwdsWait)) = .next t ∧
      selects .fsmRwdsWait (phase 127 (inState .rwdsWait)) = true ∧
      (phase 127 (inState .rwdsWait)).fsm.state ≠ .timeout ∧ t.fsm.state = .timeout :=
  ⟨_, rfl, by decide, by decide, by decide⟩

theorem witness_BurstLimitEndsTheWindow :
    Inputs.idle.rst = false ∧ (burst 512 true (inState .readBurst)).fsm.contHint = true ∧
      (burst 512 true (inState .readBurst)).fsm.burstCnt.toNat = 512 ∧
      (burst 512 true (inState .writeBurst)).fsm.state = .writeBurst ∧
      (asking false 0x200 0 15 2 State.reset).inp.grant = .external ∧
      (asking false 0x200 0 15 2 State.reset).inp.bus.cyc = true ∧
      (asking false 0x200 0 15 2 State.reset).inp.bus.stb = true := by decide

theorem witness_BusRequestOpensAWindow :
    requestOf (.busWrRsvd110 ⟨5, 15, 0⟩) = some (true, 0b110, ⟨5, 15, 0⟩) ∧ (inState .idle).inp.rst = false ∧
      (inState .idle).fsm.state = .idle := by decide

theorem witness_CommandWordIsStoredAndSent :
    (inState .idle).inp.rst = false ∧ (inState .idle).fsm.state = .idle ∧ (inState .cmd).fsm.state ≠ .idle := by decide

theorem witness_BusNopIsNoRequest :
    (inState .idle).inp.rst = false ∧ (inState .idle).fsm.state = .idle ∧ (inState .readAck).fsm.state = .readAck ∧
      (inState .wPrep).fsm.state = .wPrep := by decide

theorem witness_AcknowledgedRequestGivesHintAndData :
    requestOf (.busRdBurst ⟨5, 15, 0⟩) = some (false, 0b010, ⟨5, 15, 0⟩) ∧ (inState .readAck).inp.rst = false ∧
      (inState .readAck).fsm.state = .readAck ∧ (inState .wPrep).fsm.state = .wPrep := by decide

theorem witness_BusVectorIgnoredElsewhere :
    isBusOp (.busNop false 0) = true ∧ isBusOp (.busWrBurst ⟨5, 15, 0⟩) = true ∧
      (inState .readBurst).fsm.state ≠ .idle ∧ (inState .readBurst).fsm.state ≠ .readAck ∧
      (inState .readBurst).fsm.state ≠ .wPrep := by decide

theorem witness_ReservedCycleTypesAreClassic :
    requestOf (.busRdRsvd011 ⟨5, 15, 0⟩) = some (false, 0b011, ⟨5, 15, 0⟩) ∧
      0b011#3 ∈ [0b001#3, 0b011#3, 0b100#3, 0b101#3, 0b110#3] ∧
      requestOf (.busRdClassic ⟨5, 15, 0⟩) = some (false, 0b000, ⟨5, 15, 0⟩) := by decide

/-- An acknowledgment with the counter at its bound, and a cycle without one. -/
theorem witness_AcknowledgmentsAreSingleCycles :
    (burst 512 false (inState .readAck)).inp.rst = false ∧ (burst 512 false (inState .readAck)).fsm.burstCnt.toNat ≤ 512 ∧
      ackNow (burst 512 false (inState .readAck)) = true ∧ ackNow (inState .readBurst) = false := by decide

theorem witness_StorageChangesOnlyAtATransmit :
    (∃ t, exec .fsmCmd (inState .cmd) = .next t ∧ selects .fsmCmd (inState .cmd) = true ∧
      ((inState .cmd).fsm.state = .wPrep → ∀ b < 4, (0 : Nat) ≠ deviceByteAddr 0 0 b)) ∧
    ∃ t, exec .fsmWPrep (inState .wPrep) = .next t ∧ selects .fsmWPrep (inState .wPrep) = true ∧
      ∀ b < 4, (4 : Nat) ≠ deviceByteAddr (inState .wPrep).fsm.ca (inState .wPrep).fsm.burstCnt.toNat b := by
  refine ⟨⟨_, rfl, by decide, by decide⟩, ⟨_, rfl, by decide, by decide⟩⟩

theorem test_deviceRead :
    deviceRead (fun _ => 9) (encodeCommand 0x100 false) 0 [(0x400, 0xFF), (0x401, 0xFE), (0x402, 1)] = 0xFFFE0109 := by
  decide

theorem witness_rst_is_low : State.reset.inp.rst = false ∧ (inState .readBurst).inp.rst = false := by decide

/-- Lanes driven and released, the strobe driven and released, and cycles in and outside `W_PREP`. -/
theorem witness_PhyRegistersAfterATick :
    ((inState .wPrep).inp.rst = false ∧ windowDisturbed (inState .wPrep) = false ∧ (inState .wPrep).fsm.dqOe = false ∧
      (inState .wPrep).fsm.rwdsOe = false) ∧
    (openedWindow.inp.rst = false ∧ windowDisturbed openedWindow = false ∧ openedWindow.fsm.dqOe = true ∧
      openedWindow.fsm.state ≠ .wPrep) ∧
    ({ inState .wPrep with fsm := { (inState .wPrep).fsm with rwdsOe := true } } : State).fsm.rwdsOe = true := by decide

theorem witness_WireImageOfAWord : (3 : Nat) < 4 ∧ (7 : Nat) < 8 ∧ (1 : Nat) < 2 := by decide

theorem witness_DelayTapMoves :
    (State.reset.inp.rst = false ∧ State.reset.inp.dly = 0 ∧ State.reset.fsm.cs = false) ∧
    (openedWindow.inp.rst = false ∧ openedWindow.fsm.cs = true) ∧ ∃ t, exec .fsmCmd openedWindow = .next t :=
  ⟨by decide, by decide, _, rfl⟩

theorem witness_IgnoredRegisterWrites : ((6 : BitVec 3) = 6 ∨ (6 : BitVec 3) = 7) ∧ ((7 : BitVec 3) = 6 ∨ (7 : BitVec 3) = 7) := by
  decide

/-- The start that takes effect, and each ground on which none does. -/
theorem witness_EnableStartsAnEngine :
    (State.reset.inp.rst = false ∧ Instr.dmaStartLocal .writer ∈ [Instr.csrWrEnable .writer 0, Instr.dmaStartLocal .writer]) ∧
    (extSyncOf State.reset.params .writer = false ∧ (sized 1 1).busy = false ∧ (sized 1 1).est = .idle ∧
      (sized 1 1).transferSize ≠ 0 ∧ (sized 1 1).burstSize ≠ 0) ∧
    (extSyncOf { Params.default with extSyncWriter := true } .writer = true ∧ (running 1 1 0 0).busy = true ∧
      (sized 0 1).transferSize = 0 ∧ (sized 1 0).burstSize = 0) := by decide

theorem witness_ExternalStart :
    (State.reset.inp.rst = false ∧ (State.reset.inp.eng .reader).csr = none ∧ (State.reset.inp.eng .reader).start = false) ∧
    (extSyncOf { Params.default with extSyncReader := true } .reader = true ∧ (running 1 1 0 0).enabled = true ∧
      (sized 1 1).busy = false ∧ (sized 1 1).est = .idle ∧ (sized 1 1).transferSize ≠ 0 ∧ (sized 1 1).burstSize ≠ 0) ∧
    (extSyncOf State.reset.params .reader = false ∧ (sized 1 1).enabled = false) := by decide

theorem witness_ConfigurationFrame :
    ∃ t, exec (.csrWrStartAddress .writer 4) State.reset = .next t ∧ State.reset.inp.rst = false ∧
      Instr.csrWrStartAddress .writer 4 ≠ .sysReset ∧ (Instr.csrWrStartAddress .writer 4).WellFormed = true ∧
      (State.reset.inp.eng .reader).csr = none ∧ configures (.csrWrStartAddress .writer 4) ≠ some .reader :=
  ⟨_, rfl, by decide, by decide, by decide, by decide, by decide⟩

/-- A completion sets the flag, and it stays in a later cycle. -/
theorem witness_DoneIsSticky :
    (∃ t, exec (.engActive .writer) (grantTo .writer (writerIs (running 1 1 0 0) (inState .readAck))) = .next t ∧
      selects (.engActive .writer) (grantTo .writer (writerIs (running 1 1 0 0) (inState .readAck))) = true ∧
      (running 1 1 0 0).done = false ∧ (t.engine .writer).done = true) ∧
    ∃ t, exec (.csrWrReset .reader 0) (writerIs { Engine.reset with done := true } State.reset) = .next t ∧
      (writerIs { Engine.reset with done := true } State.reset).writer.done = true ∧
      resets (.csrWrReset .reader 0) ≠ some .writer :=
  ⟨⟨_, rfl, by decide, by decide, by decide⟩, ⟨_, rfl, by decide, by decide⟩⟩

/-- A busy engine with and without its partner's level, and one that is not busy. -/
theorem witness_IdleEngineOpensABurst :
    (State.reset.inp.rst = false ∧ (State.reset.inp.eng .writer).csr = none ∧ (State.reset.inp.eng .writer).start = false ∧
      (State.reset.engine .writer).est = .idle ∧ (State.reset.engine .writer).busy = false) ∧
    ({ running 3 8 0 0 with est := .idle } : Engine).busy = true ∧
    partnerLevel (partner .writer true 0 State.reset) .writer = true ∧ partnerLevel State.reset .writer = false := by decide

/-- Not acknowledged; acknowledged with the transfer's last word, with the burst's last word, with an inner word. -/
theorem witness_ActiveEngineCountsWords :
    ((inState .readAck).inp.rst = false ∧ ((inState .readAck).inp.eng .writer).csr = none ∧
      (running 5 2 1 1).est = .active ∧ (running 5 2 1 1).busy = true) ∧
    ackTo (inState .readAck) .writer = false ∧ ackTo (grantTo .writer (inState .readAck)) .writer = true ∧
    (running 5 2 4 0).wordCnt = (running 5 2 4 0).transferSize - 1 ∧
    ((running 5 2 1 1).wordCnt ≠ (running 5 2 1 1).transferSize - 1 ∧
      (running 5 2 1 1).bwordCnt = (running 5 2 1 1).burstSize - 1) ∧
    (running 5 2 0 0).bwordCnt ≠ (running 5 2 0 0).burstSize - 1 := by decide

theorem witness_EngineRequestIsServed :
    (grantTo .reader (readerIs (running 3 8 0 0) (inState .idle))).inp.rst = false ∧
      (grantTo .reader (readerIs (running 3 8 0 0) (inState .idle))).inp.grant = .engine .reader ∧
      ((grantTo .reader (readerIs (running 3 8 0 0) (inState .idle))).engine .reader).est = .active ∧
      (inState .idle).fsm.state = .idle ∧ (inState .readAck).fsm.state = .readAck ∧ (inState .wPrep).fsm.state = .wPrep := by
  decide

/-- Each engine with and without its own level. -/
theorem witness_StreamCodesOfACycle :
    (inState .readAck).inp.rst = false ∧ engineLevel (inState .readAck) .writer = false ∧
      engineLevel (grantTo .writer (writerIs (running 3 8 0 0) (inState .readAck))) .writer = true ∧
      engineLevel (inState .wPrep) .reader = false ∧
      engineLevel (grantTo .reader (readerIs (running 3 8 0 0) (inState .wPrep))) .reader = true := by decide

theorem witness_DiagnosticsChangeNothing :
    ((readerIs (running 3 8 0 0) State.reset).engine .reader).est = .active ∧
      Instr.strmIdle .reader 5 ∈ [Instr.strmXfer .reader 5, Instr.strmOverflow .reader 5, Instr.strmUnderflow .reader 5, Instr.strmIdle .reader 5] ∧
      sinkDataIn (partner .reader true 5 State.reset) = 5 := by decide

/-- A foreign queue with room and a full one, running, after a clean flush and after an unclean reset; a queue of the
`sys` write side. -/
theorem witness_QueueWriteSideTick :
    ((withQueue (foreignQueue 3 0 0 0 0 0)).queues[0]? = some (foreignQueue 3 0 0 0 0 0) ∧
      (foreignQueue 3 0 0 0 0 0).cfg.sysSide = .read) ∧
    (writeTrusted (foreignQueue 3 0 0 0 0 0).flush = true ∧ writeTrusted flushed = true ∧
      writeTrusted ⟨true, true, true, 1, 2, false, true, 2⟩ = false ∧
      writeTrusted ⟨false, false, false, 0, 0, true, true, 2⟩ = false) ∧
    (writeTrusted ⟨false, true, false, 0, 0, false, true, 1⟩ = true ∧
      writeTrusted ⟨false, true, false, 0, 0, false, false, 1⟩ = false) ∧
    levelW (foreignQueue 3 0 0 0 0 0) ≠ queueDepth (foreignQueue 3 0 0 0 0 0) ∧
    levelW (foreignQueue 4 0 0 0 0 0) = queueDepth (foreignQueue 4 0 0 0 0 0) ∧
    ((foreignReader 4 3 0 0 4 4).cfg.sysSide = .write ∧ (withQueue (foreignReader 4 3 0 0 4 4)).inp.rst = false ∧
      (queueLines (withQueue (foreignReader 4 3 0 0 4 4)) 0).rst = false) := by decide

theorem witness_QueueReadSideTick :
    ((withQueue (foreignReader 4 3 0 0 4 4)).queues[0]? = some (foreignReader 4 3 0 0 4 4) ∧
      (foreignReader 4 3 0 0 4 4).cfg.sysSide = .write) ∧
    (readTrusted (foreignReader 4 3 0 0 4 4).flush = true ∧ readTrusted flushed = true ∧
      readTrusted ⟨true, true, true, 2, 1, false, true, 2⟩ = false ∧
      readTrusted ⟨false, false, false, 0, 0, true, true, 2⟩ = false) ∧
    (readTrusted ⟨true, false, false, 0, 0, false, true, 1⟩ = true ∧
      readTrusted ⟨true, false, true, 1, 2, false, false, 2⟩ = false) ∧
    (foreignReader 4 3 0 0 4 4).rptr ≠ (foreignReader 4 3 0 0 4 4).wptrR2 ∧
    (foreignReader 4 4 0 0 4 4).rptr = (foreignReader 4 4 0 0 4 4).wptrR2 ∧
    ((foreignQueue 3 0 0 0 0 0).cfg.sysSide = .read ∧ (withQueue (foreignQueue 3 0 0 0 0 0)).inp.rst = false ∧
      (queueLines (withQueue (foreignQueue 3 0 0 0 0 0)) 0).rst = false) := by decide

/-- Either side in `sys`, with the system reset, with the side in reset already, and facing no engine. -/
theorem witness_QueueSideResets :
    ((withQueue (foreignQueue 3 1 1 0 3 3)).queues[0]? = some (foreignQueue 3 1 1 0 3 3) ∧
      (foreignQueue 3 1 1 0 3 3).cfg.sysSide = .read ∧ (foreignReader 4 3 0 0 4 4).cfg.sysSide = .write) ∧
    ((withQueue (foreignQueue 3 1 1 0 3 3)).putReset.inp.rst = true ∧
      (queueLines ((withQueue (foreignQueue 3 1 1 0 3 3)).putQueue 0 true (.lines false true 0)) 0).rst = true) ∧
    ∀ e, ((withQueue (foreignQueue 3 1 1 0 3 3)).inp.eng e).partner ≠ .queue 0 := by
  refine ⟨by decide, by decide, fun e => ?_⟩
  cases e <;> decide

/-- An operation on each kind of far end, beside a queue and a crossing of its domain and of the other. -/
theorem witness_ForeignTicksTouchTheirDomain :
    ((withQueue (foreignQueue 3 1 1 0 3 3)).queues[0]? = some (foreignQueue 3 1 1 0 3 3) ∧
      ∃ t, exec (.cdcwPush 0 9) (withQueue (foreignQueue 3 1 1 0 3 3)) = .next t) ∧
    (∃ t, exec (.cdcrPop 0) (withQueue (foreignReader 4 3 0 0 4 4)) = .next t) ∧
    (∃ t, exec (.pulseSend 0 true) (withCrossing (Crossing.powerOn .dest .videoPixel)) = .next t) ∧
    (∃ t, exec (.pulseSync 0) (withCrossing (Crossing.powerOn .source .videoPixel)) = .next t) ∧
    (queueFarIn .videoPixel State.reset 0 = true ∧ queueFarIn .videoPixel State.reset 1 = false ∧
      crossingFarIn .sensorReceive State.reset 1 = true ∧ crossingFarIn .sensorReceive State.reset 0 = false) :=
  ⟨⟨rfl, _, rfl⟩, ⟨_, rfl⟩, ⟨_, rfl⟩, ⟨_, rfl⟩, by decide⟩

/-- The state with this event next in the script. -/
def scripted (w : OpWord) : State :=
  { State.reset with script := [⟨Inputs.idle, some w⟩] }

theorem witness_StopsByName :
    ({ State.reset with params := { Params.default with writeLatency := 257 } } : State).legalBuild = false ∧
      rejects (fetch (scripted ⟨.fsm, 12, .none⟩)) .noSuchState = true ∧
      (decodes (fetch (scripted ⟨.fsm, 1, .none⟩)) .fsmCmd = true ∧
        selects .fsmCmd (nextCycle (scripted ⟨.fsm, 1, .none⟩)) = false) ∧
      State.reset.queues.length ≤ 2 ∧ State.reset.crossings.length ≤ 2 := by decide

theorem test_stops :
    refuses (step { State.reset with params := { Params.default with writeLatency := 257 } }) .illegalBuild = true ∧
      refuses (step (scripted ⟨.fsm, 12, .none⟩)) (.undecodable .noSuchState) = true ∧
      refuses (step (scripted ⟨.fsm, 1, .none⟩)) .notTheStateCode = true ∧
      faults (exec (.cdcrPop 2) State.reset) (.noSuchQueue 2) = true ∧
      faults (exec (.pulseSync 2) State.reset) (.noSuchCrossing 2) = true := by decide

/-- Ticks of `95_test_vectors.md` P8, up to a full queue; and the same after a clean flush, the read side leaving its reset
later than the write side. -/
theorem witness_QueueKeepsOrder :
    ((foreignQueue 0 0 0 0 0 0).wptr = 0 ∧ writeTrusted (foreignQueue 0 0 0 0 0 0).flush = true ∧
      readTrusted (foreignQueue 0 0 0 0 0 0).flush = true) ∧
    staysReleased false false [.write false true 0xD0, .write false true 0xD1, .write false true 0xD2, .read false true,
      .write false true 0xD3, .read false true, .write false true 0xD4, .read false true] = true ∧
    pushesOf [.write false true 0xD0, .write false true 0xD1, .write false true 0xD2, .read false true,
      .write false true 0xD3, .read false true, .write false true 0xD4, .read false true] (foreignQueue 0 0 0 0 0 0) =
      [0xD0, 0xD1, 0xD2, 0xD3] ∧
    popsOf [.write false true 0xD0, .write false true 0xD1, .write false true 0xD2, .read false true,
      .write false true 0xD3, .read false true, .write false true 0xD4, .read false true] (foreignQueue 0 0 0 0 0 0) =
      [0xD0] ∧
    (writeTrusted flushed = true ∧ readTrusted flushed = true ∧
      staysReleased true true [.write true true 5, .write false true 0xD0, .read true true, .read false true,
        .read false true] = true ∧
      popsOf [.write true true 5, .write false true 0xD0, .read true true, .read false true, .read false true]
        (flushedTo flushed (foreignQueue 0 0 0 0 0 0)) = [0xD0]) := by decide

theorem witness_QueueCapacity :
    (foreignQueue 0 0 0 0 0 0).wptr = 0 ∧ (foreignQueue 0 0 0 0 0 0).rptr = 0 ∧ (foreignQueue 0 0 0 0 0 0).rptrW1 = 0 ∧
      (foreignQueue 0 0 0 0 0 0).rptrW2 = 0 ∧ writeTrusted (foreignQueue 0 0 0 0 0 0).flush = true ∧
      writeTrusted (flushedTo flushed (foreignQueue 0 0 0 0 0 0)).flush = true := by decide

/-- The shortest flush: one reset tick of each side, then two more of each. -/
theorem witness_CleanFlushEmptiesTheQueue :
    (foreignQueue 3 1 1 0 3 3).flush.wIn = false ∧ (foreignQueue 3 1 1 0 3 3).flush.rIn = false ∧
      (∀ ev ∈ [QueueEvent.write true true 7, .read true true] ++
        [QueueEvent.write true false 0, .write true false 0, .read true true, .read true true], ev.running = false) ∧
      1 ≤ ticksOf .write [QueueEvent.write true true 7, .read true true] ∧
      1 ≤ ticksOf .read [QueueEvent.write true true 7, .read true true] ∧
      2 ≤ ticksOf .write [QueueEvent.write true false 0, .write true false 0, .read true true, .read true true] ∧
      2 ≤ ticksOf .read [QueueEvent.write true false 0, .write true false 0, .read true true, .read true true] := by decide

theorem witness_PulseCrossingTicks :
    (State.reset.crossings[1]? = some (Crossing.powerOn .dest .sensorReceive) ∧ State.reset.inp.rst = false ∧
      (crossLines State.reset 1).farRst = false) ∧
    (withCrossing (Crossing.powerOn .source .videoPixel)).crossings[0]? = some (Crossing.powerOn .source .videoPixel) := by decide

/-- V102: the flipped toggle, and the seven ticks of the table. -/
theorem witness_PulseIsStretched :
    (⟨.dest, .videoPixel, true, false, false, false, 0⟩ : Crossing).tgl = !(⟨.dest, .videoPixel, true, false, false, false, 0⟩ : Crossing).t3 ∧
      pulseOut (destTicks 4 2 ⟨.dest, .videoPixel, true, false, false, false, 0⟩) = false ∧
      pulseOut (destTicks 4 3 ⟨.dest, .videoPixel, true, false, false, false, 0⟩) = true ∧
      pulseOut (destTicks 4 6 ⟨.dest, .videoPixel, true, false, false, false, 0⟩) = true ∧
      pulseOut (destTicks 4 7 ⟨.dest, .videoPixel, true, false, false, false, 0⟩) = false := by decide

theorem resetQueues_inv : ∀ q ∈ resetQueues, QueueInv q := by
  intro q hq
  rcases List.mem_cons.mp hq with rfl | hq
  · exact ⟨by decide, by decide, by decide, by decide, by decide, by decide, by decide, by decide⟩
  · rcases List.mem_cons.mp hq with rfl | hq
    · exact ⟨by decide, by decide, by decide, by decide, by decide, by decide, by decide, by decide⟩
    · cases hq

theorem resetCrossings_inv (p : Params) : ∀ c ∈ resetCrossings, CrossingInv p c := by
  intro c hc
  rcases List.mem_cons.mp hc with rfl | hc
  · exact Nat.zero_le _
  · rcases List.mem_cons.mp hc with rfl | hc
    · exact Nat.zero_le _
    · cases hc

theorem openedWindow_inv : openedWindow.Inv where
  build := by decide
  fsm :=
    { pins := by decide
      phase := by decide
      burst := by decide
      hint := fun _ => rfl
      command := fun _ => by unfold reservedBitsOk; decide
      path := fun read h => by cases h }
  phy := ⟨by decide, fun _ => by decide, by decide⟩
  writer := fun h => by cases h
  reader := fun h => by cases h
  queues := resetQueues_inv
  crossings := resetCrossings_inv _
  devMem := ⟨by decide, by decide⟩

theorem witness_EveryStepKeepsTheInvariant : openedWindow.Inv ∧ ∃ t, step openedWindow = .next t :=
  ⟨openedWindow_inv, _, rfl⟩

theorem witness_WindowIsAcknowledgedInTime :
    openedWindow.Inv ∧ openedWindow.fsm.state = .cmd ∧ openedWindow.fsm.phaseCnt = 0 ∧
      (List.replicate 260 Inputs.idle).length = 260 ∧ ∀ l ∈ List.replicate 260 Inputs.idle, l.rst = false := by
  refine ⟨openedWindow_inv, rfl, rfl, List.length_replicate, fun l hl => ?_⟩
  rw [List.eq_of_mem_replicate hl]
  rfl

/-! ### The obligations between two cycles (R68, R330, R333, R235) -/

/-- The master is bound by a request in `IDLE`, by an unacknowledged window and by a `LINEAR_BURST` acknowledgment, and
free after the last one. -/
theorem test_masterBound :
    masterBound (asking false 5 0 15 0 (inState .idle)) = true ∧ masterBound (inState .idle) = false ∧
      masterBound (inState .cmd) = true ∧ masterBound (asking false 5 0 15 0b010 (inState .readAck)) = true ∧
      masterBound (asking false 5 0 15 0b111 (inState .readAck)) = false ∧
      masterBound (burst 1 true (inState .readBurst)) = true := by decide

/-- An engine's request that a `reset` write drops is not held; without the write it is. -/
theorem test_requestHeld :
    ¬ RequestHeld ((grantTo .reader (readerIs (running 3 8 0 0) (inState .cmd))).putCsr .reader ⟨true, 5, 0⟩)
        (grantTo .reader (inState .cmd)).inp ∧
      RequestHeld (grantTo .reader (readerIs (running 3 8 0 0) (inState .cmd))) (grantTo .reader (inState .cmd)).inp := by
  unfold RequestHeld
  decide

/-! ### A faithful and responsive run, for the statements about runs -/

/-- Lines of a run: a write of two bytes, then a read of the word; the device strobes beat 0 of every cycle. -/
def roundTripLines (n : Nat) : Inputs :=
  { Inputs.idle with
    pins := ⟨0x11, 0x22, 0, 0, true, false, false, false⟩
    bus :=
      if n ≤ 6 then ⟨true, true, true, 0b1100, 0x100, 0x11223344, 0⟩
      else if 10 ≤ n ∧ n ≤ 17 then ⟨true, true, false, 0b1111, 0x100, 0, 0⟩
      else ⟨false, false, false, 0, 0, 0, 0⟩ }

/-- The reset state of a build with the shortest write latency. -/
def quickState : State :=
  { State.reset with params := { Params.default with writeLatency := 1 } }

theorem quickState_inv : quickState.Inv where
  build := by decide
  fsm :=
    { pins := by decide
      phase := by decide
      burst := by decide
      hint := fun _ => rfl
      command := fun h => absurd rfl h
      path := fun read h => by cases h }
  phy := ⟨by decide, fun _ => by decide, by decide⟩
  writer := fun h => by cases h
  reader := fun h => by cases h
  queues := resetQueues_inv
  crossings := resetCrossings_inv _
  devMem := ⟨by decide, by decide⟩

/-- Without a request `IDLE` stays (R142), so that the run is at rest from cycle 19 on. -/
theorem roundTrip_rests (k : Nat) : (cycleAt roundTripLines quickState (19 + k)).fsm.state = .idle := by
  induction k with
  | zero => decide
  | succ k ih =>
    have h6 : ¬ 19 + k ≤ 6 := by omega
    have h17 : ¬ (10 ≤ 19 + k ∧ 19 + k ≤ 17) := by omega
    have hl : (cycleAt roundTripLines quickState (19 + k)).inp = roundTripLines (19 + k) := by
      cases k <;> rfl
    have hb : busRequest (adapterIn (cycleAt roundTripLines quickState (19 + k))) = false := by
      simp [adapterIn, hl, roundTripLines, h6, h17, Inputs.idle, busRequest]
    show (sysTick (cycleAt roundTripLines quickState (19 + k))).fsm.state = .idle
    have hr : (cycleAt roundTripLines quickState (19 + k)).inp.rst = false := by rw [hl]; rfl
    unfold sysTick
    rw [hr]
    show (fsmRule _ (adapterIn (cycleAt roundTripLines quickState (19 + k))) _ _).fsm.state = .idle
    unfold fsmRule
    rw [ih]
    show (ruleIdle _ _).fsm.state = .idle
    unfold ruleIdle
    rw [hb]
    rfl

theorem roundTrip_faithful : FaithfulRun (fun _ => 0) roundTripLines quickState := by
  intro n
  by_cases h : n < 19
  · have all : ∀ n < 19, captureNow (cycleAt roundTripLines quickState n).fsm (cycleAt roundTripLines quickState n).phy =
        true → (cycleAt roundTripLines quickState n).phy.rxWord =
          deviceRead (fun _ => 0) (cycleAt roundTripLines quickState n).fsm.ca
            (cycleAt roundTripLines quickState n).fsm.burstCnt.toNat (cycleAt roundTripLines quickState n).devMem := by
      decide
    exact fun _ => all n h
  · obtain ⟨k, rfl⟩ : ∃ k, n = 19 + k := ⟨n - 19, by omega⟩
    intro _ hc
    unfold captureNow at hc
    rw [roundTrip_rests k] at hc
    cases hc

theorem roundTrip_responsive : ResponsiveRun roundTripLines quickState := by
  have all : ∀ n < 19, ((cycleAt roundTripLines quickState n).fsm.state = .rwdsWait ∨
      (cycleAt roundTripLines quickState n).fsm.state = .readStart ∨
      (cycleAt roundTripLines quickState n).fsm.state = .readBurst) →
      qual (cycleAt roundTripLines quickState n).fsm (cycleAt roundTripLines quickState n).phy = true := by decide
  have hq : ∀ n, ((cycleAt roundTripLines quickState n).fsm.state = .rwdsWait ∨
      (cycleAt roundTripLines quickState n).fsm.state = .readStart ∨
      (cycleAt roundTripLines quickState n).fsm.state = .readBurst) →
      qual (cycleAt roundTripLines quickState n).fsm (cycleAt roundTripLines quickState n).phy = true := by
    intro n hs
    by_cases h : n < 19
    · exact all n h hs
    · obtain ⟨k, rfl⟩ : ∃ k, n = 19 + k := ⟨n - 19, by omega⟩
      rw [roundTrip_rests k] at hs
      rcases hs with hs | hs | hs <;> cases hs
  exact ⟨fun n h _ => ⟨0, by decide, .inr (hq n (.inl h))⟩, fun n h _ => ⟨0, by decide, .inr (hq n (.inr (.inl h)))⟩,
    fun n h _ => hq n (.inr (.inr h))⟩

/-- The word is written in cycle 6, read in cycle 17, and comes back with the byte that was never written. -/
theorem witness_StoredWordsReadBack :
    (quickState.Inv ∧ quickState.fsm.state = .idle ∧ (∀ k ≤ 17, (roundTripLines k).rst = false) ∧
      FaithfulRun (fun _ => 0) roundTripLines quickState ∧ ResponsiveRun roundTripLines quickState) ∧
    ((cycleAt roundTripLines quickState 6).fsm.state = .wPrep ∧ ackNow (cycleAt roundTripLines quickState 17) = true ∧
      isReadCommand (cycleAt roundTripLines quickState 17).fsm.ca = true ∧
      windowHalfword (cycleAt roundTripLines quickState 17) = windowHalfword (cycleAt roundTripLines quickState 6) ∧
      ∀ k < 17, 6 < k → (cycleAt roundTripLines quickState k).fsm.state ≠ .wPrep) ∧
    busReadData (cycleAt roundTripLines quickState 17) = 0x11220000 :=
  ⟨⟨quickState_inv, rfl, by decide, roundTrip_faithful, roundTrip_responsive⟩,
    ⟨by decide, by decide, by decide, by decide, by decide⟩, by decide⟩

end Sys2Proof.Tests
end

/-! SUPPORT. The operation of a cycle as the tick finds it: an operation that answers is one `sys` tick, or one tick of
a foreign domain, of the state with the operation on its port (`00_scope.md` R6, `10_state.md` R31). -/

namespace Sys2Proof.Machine

/-! ### The operation on its port -/

/-- The register access that an operation makes, and the engine it is made on (`30_encoding.md` R90; a local start is a
write of `enable`, `45_dma_engines.md` R220). -/
def accessOf (i : Instr) : Option (EngineId × CsrAccess) :=
  match i with
  | .csrWrStartAddress e v => some (e, ⟨true, 0, v⟩)
  | .csrWrTransferSize e v => some (e, ⟨true, 1, v⟩)
  | .csrWrBurstSize e v => some (e, ⟨true, 2, v⟩)
  | .csrWrDone e v => some (e, ⟨true, 3, v⟩)
  | .csrWrEnable e v => some (e, ⟨true, 4, v⟩)
  | .csrWrReset e v => some (e, ⟨true, 5, v⟩)
  | .csrWrUndef e idx v => some (e, ⟨true, idx, v⟩)
  | .csrRdStartAddress e => some (e, ⟨false, 0, 0⟩)
  | .csrRdTransferSize e => some (e, ⟨false, 1, 0⟩)
  | .csrRdBurstSize e => some (e, ⟨false, 2, 0⟩)
  | .csrRdDone e => some (e, ⟨false, 3, 0⟩)
  | .csrRdEnable e => some (e, ⟨false, 4, 0⟩)
  | .csrRdReset e => some (e, ⟨false, 5, 0⟩)
  | .csrRdUndef e idx => some (e, ⟨false, idx, 0⟩)
  | .dmaStartLocal e => some (e, ⟨true, 4, 0⟩)
  | _ => none

/-- The access on engine `e`'s register surface in the cycle of an operation, `held` being what stands there without
it. -/
def accessAt (i : Instr) (e : EngineId) (held : Option CsrAccess) : Option CsrAccess :=
  match accessOf i with
  | some (d, a) => if d = e then some a else held
  | none => held

/-- `u` is `s` with operation `i` on its port: beside the lines, only the state registers can differ, which an operation
that can take place finds as they are (`10_state.md` R10, R25). -/
structure OnPort (i : Instr) (s u : State) : Prop where
  params : u.params = s.params
  fsm : u.fsm = { s.fsm with state := u.fsm.state }
  phy : u.phy = s.phy
  engine : ∀ e, u.engine e = { s.engine e with est := (u.engine e).est }
  queues : u.queues = s.queues
  crossings : u.crossings = s.crossings
  devMem : u.devMem = s.devMem
  out : u.out = s.out
  free : u.free = s.free
  tapMoved : u.tapMoved = s.tapMoved
  script : u.script = s.script
  rst : i ≠ .sysReset → u.inp.rst = s.inp.rst
  access : ∀ e, (u.inp.eng e).csr = accessAt i e (s.inp.eng e).csr
  selected : selects i s = true → u.fsm.state = s.fsm.state ∧ ∀ e, (u.engine e).est = (s.engine e).est

section OnPort
variable {i : Instr} {s u : State}

theorem OnPort.fsm_eq (h : OnPort i s u) (hsel : selects i s = true) : u.fsm = s.fsm := by
  rw [h.fsm, (h.selected hsel).1]

theorem OnPort.engine_eq (h : OnPort i s u) (hsel : selects i s = true) (e : EngineId) : u.engine e = s.engine e := by
  rw [h.engine, (h.selected hsel).2]

theorem OnPort.engine_done (h : OnPort i s u) (e : EngineId) : (u.engine e).done = (s.engine e).done := by
  rw [h.engine]

theorem OnPort.config (h : OnPort i s u) (e : EngineId) : configOf (u.engine e) = configOf (s.engine e) := by
  rw [h.engine]; rfl

/-- An operation that changes nothing but lines, none of them a register access of its own. -/
theorem onPort_lines {l : Inputs} (hr : i ≠ .sysReset → l.rst = s.inp.rst)
    (ha : ∀ e, (l.eng e).csr = accessAt i e (s.inp.eng e).csr) : OnPort i s { s with inp := l } where
  params := rfl
  fsm := rfl
  phy := rfl
  engine e := by cases e <;> rfl
  queues := rfl
  crossings := rfl
  devMem := rfl
  out := rfl
  free := rfl
  tapMoved := rfl
  script := rfl
  rst := hr
  access := ha
  selected _ := ⟨rfl, fun e => by cases e <;> rfl⟩

/-- An operation that changes nothing but lines beside the reset and the engines' lines. -/
theorem onPort_otherLines {l : Inputs} (ha : accessOf i = none) (hr : l.rst = s.inp.rst)
    (hw : l.writer = s.inp.writer) (hd : l.reader = s.inp.reader) : OnPort i s { s with inp := l } :=
  onPort_lines (fun _ => hr) fun e => by cases e <;> simp [accessAt, ha, Inputs.eng, hw, hd]

theorem setEngIn_inp_eng_ne {d e : EngineId} (s : State) (l : EngIn) (h : d ≠ e) :
    (s.setEngIn e l).inp.eng d = s.inp.eng d := by
  match d, e with
  | .writer, .reader => rfl
  | .reader, .writer => rfl
  | .writer, .writer => exact absurd rfl h
  | .reader, .reader => exact absurd rfl h

/-- An operation that changes nothing but one engine's lines. -/
theorem onPort_setEngIn {e : EngineId} {l : EngIn} (hi : ∀ d, d ≠ e → ∀ held, accessAt i d held = held)
    (hl : l.csr = accessAt i e (s.inp.eng e).csr) : OnPort i s (s.setEngIn e l) := by
  have ha : ∀ d, ((s.setEngIn e l).inp.eng d).csr = accessAt i d (s.inp.eng d).csr := by
    intro d
    by_cases hd : d = e
    · subst hd
      rw [setEngIn_inp_eng, hl]
    · rw [hi d hd, setEngIn_inp_eng_ne s l hd]
  cases e <;> exact onPort_lines (fun _ => rfl) ha

/-- The register access of an operation. -/
theorem onPort_putCsr {e : EngineId} {a : CsrAccess} (h : accessOf i = some (e, a)) : OnPort i s (s.putCsr e a) :=
  onPort_setEngIn (fun d hd held => by simp [accessAt, h, Ne.symm hd]) (by simp [accessAt, h])

/-- Lines of an engine beside its register surface. -/
theorem onPort_engineLines {e : EngineId} {l : EngIn} (h : accessOf i = none) (hl : l.csr = (s.inp.eng e).csr) :
    OnPort i s (s.setEngIn e l) :=
  onPort_setEngIn (fun d _ held => by simp [accessAt, h]) (by simp [accessAt, h, hl])

/-- An operation that puts nothing on any line. -/
theorem onPort_self (ha : accessOf i = none) : OnPort i s s :=
  onPort_otherLines ha rfl rfl rfl

/-- A code of the protocol FSM. -/
theorem onPort_setFsmState {x : FsmState} (h : fsmStateOf i = some x) (ha : accessOf i = none) :
    OnPort i s (s.setFsmState x) where
  params := rfl
  fsm := rfl
  phy := rfl
  engine e := by cases e <;> rfl
  queues := rfl
  crossings := rfl
  devMem := rfl
  out := rfl
  free := rfl
  tapMoved := rfl
  script := rfl
  rst _ := rfl
  access e := by simp [accessAt, ha]
  selected hsel := by
    have hx : s.fsm.state = x := by simpa [selects, h] using hsel
    rw [setFsmState_same s x hx]
    exact ⟨rfl, fun _ => rfl⟩

/-- A code of an engine's FSM. -/
theorem onPort_setEst {e : EngineId} {x : EngState} (hf : fsmStateOf i = none) (h : engStateOf i = some (e, x))
    (ha : accessOf i = none) : OnPort i s (s.setEst e x) where
  params := by simp
  fsm := by simp
  phy := by simp
  engine d := by cases d <;> cases e <;> rfl
  queues := by simp
  crossings := by simp
  devMem := by simp
  out := by simp
  free := by simp
  tapMoved := by simp
  script := by simp
  rst _ := by simp
  access d := by simp [accessAt, ha]
  selected hsel := by
    have hx : (s.engine e).est = x := by simpa [selects, hf, h] using hsel
    rw [setEst_same s e x hx]
    exact ⟨rfl, fun _ => rfl⟩

end OnPort

/-! ### Everything an operation can do -/

/-- `t` is what operation `i` leaves of `s`: one `sys` tick, with the FSM's `shiftOut` call or the operation's own, or
one tick of a foreign domain, with the operation on its port. -/
def TickOf (i : Instr) (s t : State) : Prop :=
  ∃ u, OnPort i s u ∧ ((∃ call, t = sysTickCalling call u) ∨ ∃ d, t = domainTick d u)

section TickOf
variable {i : Instr} {s t u : State}

theorem tickOf_sysTickCalling {call : Option ShiftCall} (h : exec i s = .next t)
    (hx : exec i s = .next (sysTickCalling call u)) (hu : OnPort i s u) : TickOf i s t :=
  ⟨u, hu, .inl ⟨call, Host.Outcome.next.inj (h.symm.trans hx)⟩⟩

theorem tickOf_sysTick (h : exec i s = .next t) (hx : exec i s = .next (sysTick u)) (hu : OnPort i s u) :
    TickOf i s t :=
  tickOf_sysTickCalling h hx hu

theorem tickOf_queueWriteStep {n data : Nat} {rst valid : Bool} (ha : accessOf i = none)
    (h : queueWriteStep n rst valid data s = .next t) : TickOf i s t := by
  obtain ⟨q, -, ⟨-, rfl⟩ | ⟨-, rfl⟩⟩ := queueWriteStep_cases h
  · exact ⟨s.putQueue n rst _, onPort_otherLines ha rfl rfl rfl, .inl ⟨_, rfl⟩⟩
  · exact ⟨s.putFarQueue n _, onPort_otherLines ha rfl rfl rfl, .inr ⟨_, rfl⟩⟩

theorem tickOf_queueReadStep {n : Nat} {rst ready : Bool} (ha : accessOf i = none)
    (h : queueReadStep n rst ready s = .next t) : TickOf i s t := by
  obtain ⟨q, -, ⟨-, rfl⟩ | ⟨-, rfl⟩⟩ := queueReadStep_cases h
  · exact ⟨s.putQueue n rst _, onPort_otherLines ha rfl rfl rfl, .inl ⟨_, rfl⟩⟩
  · exact ⟨s.putFarQueue n _, onPort_otherLines ha rfl rfl rfl, .inr ⟨_, rfl⟩⟩

theorem tickOf_crossingSourceStep {x : Nat} {pulse : Bool} (ha : accessOf i = none)
    (h : crossingSourceStep x pulse s = .next t) : TickOf i s t := by
  obtain ⟨c, -, ⟨-, rfl⟩ | ⟨-, rfl⟩⟩ := crossingSourceStep_cases h
  · exact ⟨s.putPulse x pulse, onPort_otherLines ha rfl rfl rfl, .inl ⟨_, rfl⟩⟩
  · exact ⟨s.putFarPulse x pulse, onPort_otherLines ha rfl rfl rfl, .inr ⟨_, rfl⟩⟩

theorem tickOf_crossingDestStep {x : Nat} (ha : accessOf i = none) (h : crossingDestStep x s = .next t) :
    TickOf i s t := by
  obtain ⟨c, -, ⟨-, rfl⟩ | ⟨-, rfl⟩⟩ := crossingDestStep_cases h
  · exact ⟨s, onPort_self ha, .inl ⟨_, rfl⟩⟩
  · exact ⟨s, onPort_self ha, .inr ⟨_, rfl⟩⟩

end TickOf

/-- Everything an operation can do, if it answers a next state. -/
theorem exec_cases {i : Instr} {s t : State} (h : exec i s = .next t) : TickOf i s t := by
  cases i
  case caRd | caWr | busNop | busRdClassic | busRdBurst | busRdEnd | busRdRsvd001 | busRdRsvd011 | busRdRsvd100
      | busRdRsvd101 | busRdRsvd110 | busWrClassic | busWrBurst | busWrEnd | busWrRsvd001 | busWrRsvd011
      | busWrRsvd100 | busWrRsvd101 | busWrRsvd110 | dlyLoad | dlyInc | dlyDec | dlyHold =>
    exact tickOf_sysTick h rfl (onPort_otherLines rfl rfl rfl rfl)
  case csrWrStartAddress | csrWrTransferSize | csrWrBurstSize | csrWrDone | csrWrEnable | csrWrReset | csrWrUndef
      | csrRdStartAddress | csrRdTransferSize | csrRdBurstSize | csrRdDone | csrRdEnable | csrRdReset | csrRdUndef
      | dmaStartLocal =>
    exact tickOf_sysTick h rfl (onPort_putCsr rfl)
  case fsmIdle | fsmCmd | fsmRwdsWait | fsmReadStart | fsmReadAck | fsmReadBurst | fsmLatencyWrite | fsmWPrep
      | fsmWriteBurst | fsmWriteFinish | fsmTimeout | fsmCleanup =>
    exact tickOf_sysTick h rfl (onPort_setFsmState rfl rfl)
  case engIdle | engActive => exact tickOf_sysTick h rfl (onPort_setEst rfl rfl rfl)
  case strmXfer | strmUnderflow | strmOverflow | strmIdle | dmaStartExt =>
    exact tickOf_sysTick h rfl (onPort_engineLines rfl rfl)
  case cdcwReset | cdcwPush | cdcwStall | cdcwIdle => exact tickOf_queueWriteStep rfl h
  case cdcrReset | cdcrPop | cdcrWait | cdcrEmpty => exact tickOf_queueReadStep rfl h
  case phyShiftout | phyIdle => exact tickOf_sysTickCalling h rfl (onPort_self rfl)
  case phySamplein => exact tickOf_sysTick h rfl (onPort_self rfl)
  case pulseSend => exact tickOf_crossingSourceStep rfl h
  case pulseSync => exact tickOf_crossingDestStep rfl h
  case sysReset => exact tickOf_sysTick h rfl (onPort_lines (fun hne => absurd rfl hne) fun _ => rfl)

end Sys2Proof.Machine

/-! SUPPORT. What a tick does to an engine's configuration and to its `done` flag (`10_state.md` R23, R24). -/

namespace Sys2Proof.Machine

/-! ### One engine's tick -/

/-- Without a write to them the configuration registers stay (`45_dma_engines.md` R212 to R214). -/
theorem engConfigure_of_no_write {a : Option CsrAccess} (g : Engine) (h0 : csrWrites a 0 = false)
    (h1 : csrWrites a 1 = false) (h2 : csrWrites a 2 = false) : engConfigure a g = g := by
  rw [engConfigure, h0, h1, h2]
  rfl

section EngTick
variable (extSync : Bool) (l : EngIn) (acked partnerOk : Bool) (g : Engine)

@[simp] theorem engOpen_done (opens : Bool) : (engOpen opens g).done = g.done := by
  unfold engOpen; split <;> rfl

@[simp] theorem engStart_done (ok : Bool) : (engStart ok g).done = g.done := by
  unfold engStart; split <;> rfl

@[simp] theorem engEnable_done (pulse : Bool) : (engEnable pulse g).done = g.done := by
  unfold engEnable; split <;> rfl

@[simp] theorem engConfigure_done (a : Option CsrAccess) : (engConfigure a g).done = g.done := rfl

@[simp] theorem engCountBurst_done (last : Bool) (before : Engine) : (engCountBurst last before g).done = g.done := by
  unfold engCountBurst; split <;> rfl

@[simp] theorem engCountBurst_busy (last : Bool) (before : Engine) : (engCountBurst last before g).busy = g.busy := by
  unfold engCountBurst; split <;> rfl

/-- An acknowledged word sets `done` if it is the transfer's last one, and never clears it. -/
theorem engAcknowledge_done (before : Engine) :
    (engAcknowledge acked before g).done = (g.done || (acked && lastOfTransfer before)) := by
  unfold engAcknowledge engCountTransfer
  cases acked <;> cases lastOfTransfer before <;> simp

/-- The transfer's last word ends it. -/
theorem engAcknowledge_busy_of_last {before : Engine} (h : lastOfTransfer before = true) :
    (engAcknowledge true before g).busy = false := by
  simp [engAcknowledge, engCountTransfer, h]

theorem engAbort_done (pulse : Bool) : (engAbort pulse g).done = (!pulse && g.done) := by
  cases pulse <;> rfl

theorem engAbort_busy (pulse : Bool) : (engAbort pulse g).busy = (!pulse && g.busy) := by
  cases pulse <;> rfl

/-- `done` after a tick: set by the transfer's last word acknowledged while active, cleared by the `reset` pulse alone
(`45_dma_engines.md` R226, R227, R235). -/
theorem engTick_done :
    (engTick extSync l acked partnerOk g).done =
      (!resetPulse l.csr && (g.done || (engActive g && acked && lastOfTransfer g))) := by
  simp [engTick, engAbort_done, engAcknowledge_done]

/-- The transfer's last word acknowledged while active clears `busy`, with or without a `reset` pulse. -/
theorem engTick_busy_of_last (h : (engActive g && acked && lastOfTransfer g) = true) :
    (engTick extSync l acked partnerOk g).busy = false := by
  obtain ⟨hack, hlast⟩ := Bool.and_eq_true_iff.mp h
  rw [engTick, engAbort_busy, hack, engAcknowledge_busy_of_last _ hlast, Bool.and_false]

end EngTick

/-! ### A tick of the machine -/

@[simp] theorem domainTick_engine (d : Domain) (s : State) (e : EngineId) : (domainTick d s).engine e = s.engine e := by
  cases e <;> rfl

theorem sysTickCalling_engine (call : Option ShiftCall) {s : State} (h : s.inp.rst = false) (e : EngineId) :
    (sysTickCalling call s).engine e = engineAfter s e := by
  rw [sysTickCalling_run call s h, runTickCalling_engine]

/-- Without a configuration write the configuration stays. -/
theorem engineAfter_config {s : State} {e : EngineId}
    (h : ∀ idx ∈ [0, 1, 2], csrWrites (s.inp.eng e).csr idx = false) :
    configOf (engineAfter s e) = configOf (s.engine e) := by
  rw [engineAfter, engTick_config,
    engConfigure_of_no_write _ (h 0 (by decide)) (h 1 (by decide)) (h 2 (by decide))]

/-- The `done` flag goes up with `transfer_complete` and down with the `reset` pulse (`45_dma_engines.md` R227, R233,
R235). -/
theorem engineAfter_done (s : State) (e : EngineId) :
    (engineAfter s e).done =
      (!resetPulse (s.inp.eng e).csr && ((s.engine e).done || transferCompleteNow s e)) :=
  engTick_done ..

theorem engineAfter_busy_of_complete {s : State} {e : EngineId} (h : transferCompleteNow s e = true) :
    (engineAfter s e).busy = false :=
  engTick_busy_of_last _ _ _ _ _ h

/-- What a completion says of the cycle (`45_dma_engines.md` R233). -/
theorem transferCompleteNow_iff (s : State) (e : EngineId) :
    transferCompleteNow s e = true ↔
      (s.engine e).est = .active ∧ ackTo s e = true ∧ (s.engine e).wordCnt = (s.engine e).transferSize - 1 := by
  simp [transferCompleteNow, engActive, lastOfTransfer, and_assoc]

theorem ackNow_of_ackTo {s : State} {e : EngineId} (h : ackTo s e = true) : ackNow s = true :=
  (Bool.and_eq_true_iff.mp h).1

/-! ### The register writes of an operation -/

/-- A write to register `idx` in a cycle whose script makes no access is the operation's own. -/
theorem csrWrites_accessAt_none {i : Instr} {e : EngineId} {idx : BitVec 3}
    (h : csrWrites (accessAt i e none) idx = true) :
    ∃ a, accessOf i = some (e, a) ∧ a.wr = true ∧ a.idx = idx := by
  unfold accessAt at h
  split at h
  · rename_i d a ha
    split at h
    · rename_i hd
      obtain ⟨hwr, hidx⟩ : a.wr = true ∧ a.idx = idx := by simpa [csrWrites] using h
      exact ⟨a, hd ▸ ha, hwr, hidx⟩
    · cases h
  · cases h

/-- The operations that write the configuration registers and `reset` are their own register writes: a write of an
undefined register, `done` or `enable` reaches none of them (`45_dma_engines.md` R215, R216, R219). -/
theorem accessOf_write {i : Instr} {e : EngineId} {a : CsrAccess} (hwf : i.WellFormed = true)
    (ha : accessOf i = some (e, a)) (hwr : a.wr = true) :
    (a.idx ∈ [0, 1, 2] → configures i = some e) ∧ (a.idx = 5 → resets i = some e) := by
  cases i <;> cases ha
  case csrWrStartAddress | csrWrTransferSize | csrWrBurstSize => exact ⟨fun _ => rfl, by simp⟩
  case csrWrReset => exact ⟨by simp, fun _ => rfl⟩
  case csrWrDone | csrWrEnable | dmaStartLocal => exact ⟨by simp, by simp⟩
  case csrWrUndef idx _ =>
    have hidx : idx = 6 ∨ idx = 7 := by simpa [Instr.WellFormed] using hwf
    obtain rfl | rfl := hidx <;> exact ⟨by simp, by simp⟩
  all_goals cases hwr

section OnPort
variable {i : Instr} {s u : State} {e : EngineId}

theorem OnPort.no_config_write (h : OnPort i s u) (hwf : i.WellFormed = true) (hcsr : (s.inp.eng e).csr = none)
    (hne : configures i ≠ some e) : ∀ idx ∈ [0, 1, 2], csrWrites (u.inp.eng e).csr idx = false := by
  intro idx hidx
  rw [h.access, hcsr, Bool.eq_false_iff]
  intro hw
  obtain ⟨a, ha, hwr, rfl⟩ := csrWrites_accessAt_none hw
  exact hne ((accessOf_write hwf ha hwr).1 hidx)

theorem OnPort.no_resetPulse (h : OnPort i s u) (hwf : i.WellFormed = true) (hcsr : (s.inp.eng e).csr = none)
    (hne : resets i ≠ some e) : resetPulse (u.inp.eng e).csr = false := by
  rw [resetPulse, h.access, hcsr, Bool.eq_false_iff]
  intro hw
  obtain ⟨a, ha, hwr, hidx⟩ := csrWrites_accessAt_none hw
  exact hne ((accessOf_write hwf ha hwr).2 hidx)

theorem OnPort.ackNow_eq (h : OnPort i s u) (hsel : selects i s = true) : ackNow u = ackNow s := by
  rw [ackNow, ackNow, h.fsm_eq hsel]

end OnPort

/-- What an operation other than the system reset leaves of the engines: in a `sys` tick their rules' values with the
operation on its port, in a foreign tick the registers as they are. -/
theorem exec_engine_cases {i : Instr} {s t : State} (h : exec i s = .next t) (hrst : s.inp.rst = false)
    (hne : i ≠ .sysReset) :
    ∃ u, OnPort i s u ∧ ((∀ e, t.engine e = engineAfter u e) ∨ ∀ e, t.engine e = u.engine e) := by
  obtain ⟨u, hu, ⟨call, rfl⟩ | ⟨d, rfl⟩⟩ := exec_cases h
  · have hurst : u.inp.rst = false := (hu.rst hne).trans hrst
    exact ⟨u, hu, .inl (sysTickCalling_engine call hurst)⟩
  · exact ⟨u, hu, .inr (domainTick_engine d u)⟩

/-! ### The statements about an engine's registers -/

/-- Settles O41: of the ticks an operation can be, a foreign one touches no engine, and a `sys` tick writes the
configuration only where the cycle's register access does. -/
theorem configurationFrame : Obligations.ConfigurationFrame := by
  intro i e s t h hrst hne hwf hcsr hown
  obtain ⟨u, hu, ht | ht⟩ := exec_engine_cases h hrst hne
  · calc configOf (t.engine e) = configOf (engineAfter u e) := by rw [ht]
      _ = configOf (u.engine e) := engineAfter_config (hu.no_config_write hwf hcsr hown)
      _ = configOf (s.engine e) := hu.config e
  · rw [ht, hu.config]

/-- Settles O42: in a `sys` tick `done` goes by `engineAfter_done`, and a foreign tick touches no engine. -/
theorem doneIsSticky : Obligations.DoneIsSticky := by
  intro i e s t h hsel hrst hne hwf hcsr
  obtain ⟨u, hu, ht | ht⟩ := exec_engine_cases h hrst hne
  · have hdone : (t.engine e).done =
        (!resetPulse (u.inp.eng e).csr && ((s.engine e).done || transferCompleteNow u e)) := by
      rw [ht, engineAfter_done, hu.engine_done]
    refine ⟨fun hset hown => ?_, fun hclear hset => ?_⟩
    · rw [hdone, hu.no_resetPulse hwf hcsr hown, hset]
      rfl
    · have hcomplete : transferCompleteNow u e = true := by
        rw [hdone, hclear] at hset
        exact (Bool.and_eq_true_iff.mp hset).2
      obtain ⟨hactive, hack, hlast⟩ := (transferCompleteNow_iff u e).mp hcomplete
      rw [hu.engine_eq hsel] at hactive hlast
      rw [ht, ← hu.ackNow_eq hsel]
      exact ⟨hactive, hlast, ackNow_of_ackTo hack, engineAfter_busy_of_complete hcomplete⟩
  · rw [ht, hu.engine_eq hsel]
    exact ⟨fun hset _ => hset, fun hclear hset => absurd hset (by simp [hclear])⟩

end Sys2Proof.Machine

/-! SUPPORT. One step: what is fetched, what the fetched word decodes to, and the answer of the step in each case
(`30_encoding.md` R100, `10_state.md` R10). -/

namespace Sys2Proof.Machine

/-! ### The event of the script -/

section Script
variable {s : State}

theorem fetch_of_no_script (h : s.script = []) : fetch s = stateWord s := by
  rw [fetch, h]

theorem fetch_of_word {c : Cue} {w : OpWord} {rest : List Cue} (h : s.script = c :: rest) (hw : c.op = some w) :
    fetch s = w := by
  rw [fetch, h]
  simp only [hw]

theorem fetch_of_plain {c : Cue} {rest : List Cue} (h : s.script = c :: rest) (hc : c.op = none) :
    fetch s = stateWord s := by
  rw [fetch, h]
  simp only [hc]

theorem nextCycle_of_no_script (h : s.script = []) : nextCycle s = s := by
  rw [nextCycle, h]

theorem nextCycle_of_cue {c : Cue} {rest : List Cue} (h : s.script = c :: rest) :
    nextCycle s = { s with inp := c.inp, script := rest } := by
  rw [nextCycle, h]

/-- Where the script names no operation, the state register is fetched. -/
theorem fetch_of_no_operation (h : ∀ c rest, s.script = c :: rest → c.op = none) : fetch s = stateWord s := by
  cases hs : s.script with
  | nil => exact fetch_of_no_script hs
  | cons c rest => exact fetch_of_plain hs (h c rest hs)

end Script

/-! ### The operation the state register is -/

/-- The operation that a state of the protocol FSM is the code of (`30_encoding.md` R96). -/
def fsmInstr (x : FsmState) : Instr :=
  match x with
  | .idle => .fsmIdle
  | .cmd => .fsmCmd
  | .rwdsWait => .fsmRwdsWait
  | .readStart => .fsmReadStart
  | .readAck => .fsmReadAck
  | .readBurst => .fsmReadBurst
  | .latencyWrite => .fsmLatencyWrite
  | .wPrep => .fsmWPrep
  | .writeBurst => .fsmWriteBurst
  | .writeFinish => .fsmWriteFinish
  | .timeout => .fsmTimeout
  | .cleanup => .fsmCleanup

theorem decode_stateWord (s : State) : decode (stateWord s) = .ok (fsmInstr s.fsm.state) := by
  unfold stateWord
  cases s.fsm.state <;> rfl

theorem fsmStateOf_fsmInstr (x : FsmState) : fsmStateOf (fsmInstr x) = some x := by
  cases x <;> rfl

theorem exec_fsmInstr (x : FsmState) (s : State) : exec (fsmInstr x) s = .next (sysTick (s.setFsmState x)) := by
  cases x <;> rfl

/-- A state code takes place exactly in its state. -/
theorem selects_fsmInstr (x : FsmState) (s : State) : selects (fsmInstr x) s = (s.fsm.state == x) := by
  rw [selects, fsmStateOf_fsmInstr]

/-- The operation of the state register's own code is a plain tick. -/
theorem exec_fsmInstr_state (s : State) : exec (fsmInstr s.fsm.state) s = .next (sysTick s) := by
  rw [exec_fsmInstr, setFsmState_same s _ rfl]

/-! ### The answer of a step -/

section Step
variable {s : State} {i : Instr} {err : DecodeError}

theorem step_of_illegalBuild (h : s.legalBuild = false) : step s = .refused .illegalBuild := by
  simp [step, h]

theorem step_of_undecodable (hb : s.legalBuild = true) (hd : decode (fetch s) = .error err) :
    step s = .refused (.undecodable err) := by
  simp [step, hb, hd]

theorem step_of_notTheStateCode (hb : s.legalBuild = true) (hd : decode (fetch s) = .ok i)
    (hsel : selects i (nextCycle s) = false) : step s = .refused .notTheStateCode := by
  simp [step, hb, hd, hsel]

theorem step_of_selects (hb : s.legalBuild = true) (hd : decode (fetch s) = .ok i)
    (hsel : selects i (nextCycle s) = true) : step s = exec i (nextCycle s) := by
  simp [step, hb, hd, hsel]

end Step

/-! ### The faults of an operation of one side -/

section Faults
variable {s : State} {n : Nat}

theorem queueWriteStep_of_no_queue (rst valid : Bool) (data : Nat) (h : s.queues.length ≤ n) :
    queueWriteStep n rst valid data s = .fault (.noSuchQueue n) := by
  rw [queueWriteStep, List.getElem?_eq_none h]

theorem queueReadStep_of_no_queue (rst ready : Bool) (h : s.queues.length ≤ n) :
    queueReadStep n rst ready s = .fault (.noSuchQueue n) := by
  rw [queueReadStep, List.getElem?_eq_none h]

theorem crossingSourceStep_of_no_crossing (pulse : Bool) (h : s.crossings.length ≤ n) :
    crossingSourceStep n pulse s = .fault (.noSuchCrossing n) := by
  rw [crossingSourceStep, List.getElem?_eq_none h]

theorem crossingDestStep_of_no_crossing (h : s.crossings.length ≤ n) :
    crossingDestStep n s = .fault (.noSuchCrossing n) := by
  rw [crossingDestStep, List.getElem?_eq_none h]

end Faults

/-! ### The statements about a step -/

/-- Settles O6: the branch of `step` for an operation that can take place, and the two cases of the script. -/
theorem stepRunsTheDecodedOperation : Obligations.StepRunsTheDecodedOperation := by
  intro s i hb hd hsel
  refine ⟨step_of_selects hb hd hsel, fun hnil => ?_, fun l w rest hcue => ?_⟩
  · exact ⟨fetch_of_no_script hnil, nextCycle_of_no_script hnil⟩
  · exact ⟨fetch_of_word hcue rfl, nextCycle_of_cue hcue⟩

/-- Settles O7: the fetched word is the code of the state the register holds, so it decodes and can take place, and it
runs as the tick of that state. -/
theorem plainCycleIsOneTick : Obligations.PlainCycleIsOneTick := by
  intro s hb hplain
  have hd : decode (fetch s) = .ok (fsmInstr (nextCycle s).fsm.state) := by
    rw [fetch_of_no_operation hplain, decode_stateWord, nextCycle_fsm]
  have hsel : selects (fsmInstr (nextCycle s).fsm.state) (nextCycle s) = true := by
    rw [selects_fsmInstr, beq_self_eq_true]
  rw [step_of_selects hb hd hsel, exec_fsmInstr_state]

/-- Settles O52: the three refusing branches of `step`, and the sides' operations on what is not there. -/
theorem stopsByName : Obligations.StopsByName := by
  refine ⟨fun s => ⟨step_of_illegalBuild, fun _ => step_of_undecodable, fun _ => step_of_notTheStateCode⟩,
    fun n data valid ready pulse s => ⟨fun hq => ?_, fun hx => ?_⟩⟩
  · have hw rst v : queueWriteStep n rst v data s = _ := queueWriteStep_of_no_queue rst v data hq
    have hr rst r : queueReadStep n rst r s = _ := queueReadStep_of_no_queue rst r hq
    simp only [List.forall_mem_cons]
    exact ⟨hw true valid, hw false true, hw false true, hw false false, hr true ready, hr false true, hr false false,
      hr false ready, List.forall_mem_nil _⟩
  · simp only [List.forall_mem_cons]
    exact ⟨crossingSourceStep_of_no_crossing pulse hx, crossingDestStep_of_no_crossing hx, List.forall_mem_nil _⟩

end Sys2Proof.Machine

/-! SUPPORT. The device's storage: the addresses of a window's words, and what a transmit, a tick and an operation do to
a byte (`20_memory.md` R52, R63 to R65, R73). -/

namespace Sys2Proof.Machine

/-! ### The addresses of a window's words -/

/-- The words of a read window and of a write window at one address are at the same bytes (`20_memory.md` R52). -/
theorem deviceByteAddr_encodeCommand_direction (adr : BitVec 32) (we we' : Bool) (k b : Nat) :
    deviceByteAddr (encodeCommand adr we) k b = deviceByteAddr (encodeCommand adr we') k b := by
  simp only [deviceByteAddr, commandHalfword_encodeCommand]

/-- A command word names twice its word address, modulo the device's size (`20_memory.md` R52). -/
theorem commandHalfword_encodeCommand_toNat (adr : BitVec 32) (we : Bool) :
    (commandHalfword (encodeCommand adr we)).toNat = 2 * (adr.toNat % 2 ^ 21) := by
  rw [commandHalfword_encodeCommand, BitVec.toNat_append]
  simp [Nat.shiftLeft_eq, Nat.mul_comm]

/-- Word `k` of a window is word 0 of the window at the address `k` further on (`20_memory.md` R73). -/
theorem deviceByteAddr_encodeCommand_add (adr : BitVec 32) (we : Bool) (k b : Nat) :
    deviceByteAddr (encodeCommand (adr + BitVec.ofNat 32 k) we) 0 b = deviceByteAddr (encodeCommand adr we) k b := by
  simp only [deviceByteAddr, commandHalfword_encodeCommand_toNat, BitVec.toNat_add, BitVec.toNat_ofNat]
  omega

theorem deviceByteAddr_eq_iff (ca : CommandWord) (k : Nat) {b c : Nat} (hb : b < 4) (hc : c < 4) :
    deviceByteAddr ca k b = deviceByteAddr ca k c ↔ b = c :=
  ⟨deviceByteAddr_inj ca k b c hb hc, fun h => h ▸ rfl⟩

/-! ### A transmit -/

/-- What a transmit leaves at its own bytes (`20_memory.md` R65). -/
theorem byte_deviceWrite_same (ca : CommandWord) (k : Nat) (c : ShiftCall) (m : Memory) {b : Nat} (hb : b < 4) :
    (deviceWrite ca k c m).byte (deviceByteAddr ca k b) =
      if beatStrobe c.mask b then m.byte (deviceByteAddr ca k b) else some (beatByte c.word b) := by
  have hbeat : ∀ j < 4, ∀ m', (deviceStoreBeat ca k c j m').byte (deviceByteAddr ca k b) =
      if beatStrobe c.mask j = false ∧ b = j then some (beatByte c.word j) else m'.byte (deviceByteAddr ca k b) := by
    intro j hj m'
    simp only [byte_deviceStoreBeat, deviceByteAddr_eq_iff ca k hb hj]
  rw [deviceWrite, hbeat 3 (by omega), hbeat 2 (by omega), hbeat 1 (by omega), hbeat 0 (by omega)]
  cases hmask : beatStrobe c.mask b <;>
    obtain rfl | rfl | rfl | rfl : b = 0 ∨ b = 1 ∨ b = 2 ∨ b = 3 := by omega
  all_goals simp [hmask]

theorem deviceByte_deviceWrite_same (init : Nat → Byte) (ca : CommandWord) (k : Nat) (c : ShiftCall) (m : Memory)
    {b : Nat} (hb : b < 4) :
    deviceByte init (deviceWrite ca k c m) (deviceByteAddr ca k b) =
      if beatStrobe c.mask b then deviceByte init m (deviceByteAddr ca k b) else beatByte c.word b := by
  rw [deviceByte, byte_deviceWrite_same ca k c m hb]
  split <;> rfl

/-- The mask of a write sends strobe level 0 for the selected bytes (`20_memory.md` R65, `40_phy_shift.md` R114). -/
theorem beatStrobe_not (sel : BitVec 4) (b : Nat) : beatStrobe (~~~sel) b = !sel.getLsbD (3 - b) := by
  have hbit : 3 - b < 4 := by omega
  simp [beatStrobe, hbit]

/-- What a transmit of a word under a byte mask leaves at its own bytes. -/
theorem deviceByte_deviceWrite_sel (init : Nat → Byte) (ca : CommandWord) (k : Nat) (w : Word) (sel : BitVec 4)
    (m : Memory) {b : Nat} (hb : b < 4) :
    deviceByte init (deviceWrite ca k ⟨w, ~~~sel⟩ m) (deviceByteAddr ca k b) =
      if sel.getLsbD (3 - b) then beatByte w b else deviceByte init m (deviceByteAddr ca k b) := by
  rw [deviceByte_deviceWrite_same init ca k _ m hb, beatStrobe_not]
  cases sel.getLsbD (3 - b) <;> rfl

/-- A word is its four bytes (`20_memory.md` R55). -/
theorem word_ext_beatByte {v w : Word} (h : ∀ b < 4, beatByte v b = beatByte w b) : v = w := by
  refine BitVec.eq_of_getLsbD_eq fun i hi => ?_
  have hbit := congrArg (fun x => x.getLsbD (i % 8)) (h (3 - i / 8) (by omega))
  have hpos : 24 - 8 * (3 - i / 8) + i % 8 = i := by omega
  have hlane : i % 8 < 8 := Nat.mod_lt _ (by decide)
  simpa [beatByte, BitVec.getLsbD_extractLsb', hpos, hlane] using hbit

/-! ### A tick -/

/-- Outside `W_PREP` no tick reaches the storage (`20_memory.md` R65). -/
theorem deviceAfter_of_ne_wPrep {s : State} (call : Option ShiftCall) (h : s.fsm.state ≠ .wPrep) :
    deviceAfter call s = s.devMem := by
  cases hs : s.fsm.state <;> simp_all [deviceAfter]

/-- In `W_PREP` the call's word is the window's word number `burst_cnt` (`20_memory.md` R65). -/
theorem deviceAfter_wPrep {s : State} (c : ShiftCall) (h : s.fsm.state = .wPrep) :
    deviceAfter (some c) s = deviceWrite s.fsm.ca s.fsm.burstCnt.toNat c s.devMem := by
  simp [deviceAfter, h]

/-- A byte changes in a tick only where the transmit of `W_PREP` puts a byte, whatever the call. -/
theorem byte_deviceAfter {s : State} (call : Option ShiftCall) {a : Nat}
    (h : s.fsm.state = .wPrep → ∀ b < 4, a ≠ deviceByteAddr s.fsm.ca s.fsm.burstCnt.toNat b) :
    (deviceAfter call s).byte a = s.devMem.byte a := by
  by_cases hs : s.fsm.state = .wPrep
  · cases call with
    | none => simp [deviceAfter, hs]
    | some c => rw [deviceAfter_wPrep c hs, byte_deviceWrite_ne _ _ _ _ _ fun b hb _ => h hs b hb]
  · rw [deviceAfter_of_ne_wPrep call hs]

/-- A tick stores what `deviceAfter` says, or nothing in a reset (`70_reset_and_hazards.md` R323, R324). -/
theorem sysTickCalling_devMem (call : Option ShiftCall) (s : State) :
    (sysTickCalling call s).devMem = if s.inp.rst then s.devMem else deviceAfter call s := by
  unfold sysTickCalling
  split <;> rfl

/-! ### The statements about the storage -/

/-- Settles O29: an operation is one tick with the operation on its port; a foreign tick and a reset leave the storage,
and a running tick changes it only at the transmit. -/
theorem storageChangesOnlyAtATransmit : Obligations.StorageChangesOnlyAtATransmit := by
  intro i s t a h hsel hother
  obtain ⟨u, hu, ⟨call, rfl⟩ | ⟨d, rfl⟩⟩ := exec_cases h
  · have hbyte : (deviceAfter call u).byte a = u.devMem.byte a :=
      byte_deviceAfter call (by rwa [hu.fsm_eq hsel])
    rw [sysTickCalling_devMem, ← hu.devMem]
    split
    · rfl
    · exact hbyte
  · rw [domainTick_devMem, hu.devMem]

end Sys2Proof.Machine

/-! SUPPORT. Every tick keeps the protocol controller's invariant: each rule of the FSM leaves a state with the pins, the
counters and the command word that `FsmInv` says (`42_protocol_fsm.md` R142 to R162). -/

namespace Sys2Proof.Machine

/-- A built command word has its reserved bits right (`30_encoding.md` R82, R83). -/
theorem reservedBitsOk_encodeCommand (adr : BitVec 32) (we : Bool) : reservedBitsOk (encodeCommand adr we) := by
  refine BitVec.eq_of_getLsbD_eq fun i hi => ?_
  simp only [encodeCommand, BitVec.getLsbD_and, BitVec.getLsbD_append]
  interval_cases i <;> simp

/-- The writes of every tick touch nothing that the invariant speaks of (`42_protocol_fsm.md` R161). -/
theorem fsmInv_everyTick {p : Params} {f : Fsm} (x : Phy) (h : FsmInv p f) : FsmInv p (everyTick x f) where
  pins := h.pins
  phase := h.phase
  burst := h.burst
  hint := h.hint
  command := h.command
  path := h.path

/-- Entering a state, with the registers as that state has them; the phase begins anew. -/
theorem fsmInv_enterState {p : Params} {f : Fsm} {x : FsmState}
    (hpins : (f.cs, f.clkEn, f.dqOe, f.rwdsOe) = pinTable x (isReadCommand f.ca))
    (hburst : f.burstCnt.toNat ≤ burstBound x) (hhint : burstBound x = 0 → f.contHint = false)
    (hcommand : x ≠ .idle → reservedBitsOk f.ca) (hpath : ∀ read, pathOf x = some read → isReadCommand f.ca = read) :
    FsmInv p (enterState x f) where
  pins := hpins
  phase := Nat.zero_le _
  burst := hburst
  hint := hhint
  command := hcommand
  path := hpath

/-- No phase is longer than its counter (`43_burst_timeout_supervisor.md` R184). -/
theorem phaseBound_lt {p : Params} (hp : Params.legal p = true) (x : FsmState) : phaseBound p x < 256 := by
  have hlat : p.writeLatency ≤ 256 := by simp [Params.legal] at hp; omega
  cases x <;> simp only [phaseBound, Config.cmdCycles, Config.timeoutCycles] <;> omega

/-- A phase's counter counts on while it is below its width. -/
theorem stayCounting_phaseCnt_toNat {f : Fsm} (h : f.phaseCnt.toNat < 255) :
    (stayCounting f).phaseCnt.toNat = f.phaseCnt.toNat + 1 := by
  have hone : (1 : BitVec 8).toNat = 1 := rfl
  rw [stayCounting_phaseCnt, BitVec.toNat_add, hone]
  omega

/-- Staying in a counted state before its last cycle. -/
theorem fsmInv_stayCounting {p : Params} {f : Fsm} (hp : Params.legal p = true) (h : FsmInv p f)
    (hlt : f.phaseCnt.toNat < phaseBound p f.state) : FsmInv p (stayCounting f) where
  pins := h.pins
  phase := by
    have hwidth := phaseBound_lt hp f.state
    rw [stayCounting_phaseCnt_toNat (by omega)]
    exact hlt
  burst := h.burst
  hint := h.hint
  command := h.command
  path := h.path

/-- Going on in the open window with the pins as they are. -/
theorem fsmInv_enterState_sameWindow {p : Params} {f g : Fsm} {x : FsmState} (h : FsmInv p f) (hidle : f.state ≠ .idle)
    (hsame : (g.cs, g.clkEn, g.dqOe, g.rwdsOe, g.ca) = (f.cs, f.clkEn, f.dqOe, f.rwdsOe, f.ca))
    (htable : pinTable x = pinTable f.state) (hpath : pathOf x = pathOf f.state)
    (hburst : g.burstCnt.toNat ≤ burstBound x) (hhint : burstBound x = 0 → g.contHint = false) :
    FsmInv p (enterState x g) := by
  simp only [Prod.mk.injEq] at hsame
  obtain ⟨hcs, hclk, hdq, hrwds, hca⟩ := hsame
  refine fsmInv_enterState ?_ hburst hhint (fun _ => hca ▸ h.command hidle) (fun read hr => hca ▸ h.path read (hpath ▸ hr))
  rw [hcs, hclk, hdq, hrwds, hca, htable]
  exact h.pins

/-- One more word in a window that has room for it. -/
theorem countWord_burstCnt_le {f : Fsm} (h : f.burstCnt.toNat ≤ Config.burstMax - 1) :
    (countWord f).burstCnt.toNat ≤ Config.burstMax := by
  have hone : (1 : BitVec 10).toNat = 1 := rfl
  rw [Config.burstMax] at *
  rw [countWord_burstCnt, BitVec.toNat_add, hone]
  omega

theorem burstCnt_le_of_mayContinue {f : Fsm} (h : mayContinue f = true) : f.burstCnt.toNat ≤ Config.burstMax - 1 := by
  obtain ⟨-, hbelow⟩ := Bool.and_eq_true_iff.mp h
  exact Nat.le_sub_one_of_lt (of_decide_eq_true hbelow)

section Rules
variable {p : Params} {b : BusIn} {x : Phy} {f : Fsm}

theorem fsmInv_ruleIdle (h : FsmInv p f) (hs : f.state = .idle) : FsmInv p (ruleIdle b f).fsm := by
  have hpins := h.pins
  simp only [hs, pinTable, Prod.mk.injEq] at hpins
  obtain ⟨hcs, hclk, hdq, hrwds⟩ := hpins
  unfold ruleIdle
  split
  · exact fsmInv_enterState (by simp [clearWindow, pinTable, hrwds]) (Nat.zero_le _) (fun _ => rfl)
      (fun _ => reservedBitsOk_encodeCommand _ _) (fun _ hr => by cases hr)
  · exact fsmInv_enterState (by simp [clearWindow, pinTable, *]) (Nat.zero_le _) (fun _ => rfl)
      (fun hne => absurd rfl hne) (fun _ hr => by cases hr)

theorem fsmInv_ruleCmd (hp : Params.legal p = true) (h : FsmInv p f) (hs : f.state = .cmd) :
    FsmInv p (ruleCmd f).fsm := by
  have hpins := h.pins
  simp only [hs, pinTable, Prod.mk.injEq] at hpins
  obtain ⟨hcs, hclk, hdq, hrwds⟩ := hpins
  have hburst : f.burstCnt.toNat ≤ 0 := by simpa [hs, burstBound] using h.burst
  have hhint : f.contHint = false := h.hint (by rw [hs]; rfl)
  have hca : reservedBitsOk f.ca := h.command (by simp [hs])
  unfold ruleCmd
  dsimp only
  split
  · split <;> rename_i hread
    · exact fsmInv_enterState (by simp [pinTable, *]) hburst (fun _ => hhint) (fun _ => hca)
        (fun _ hr => by cases hr; exact hread)
    · exact fsmInv_enterState (by simp [pinTable, *]) hburst (fun _ => hhint) (fun _ => hca)
        (fun _ hr => by cases hr; simpa using hread)
  · rename_i hdone
    refine fsmInv_stayCounting hp h ?_
    have hphase := h.phase
    simp only [hs, phaseBound, commandDone, Config.cmdCycles, beq_iff_eq] at hphase hdone ⊢
    omega

/-- A wait for the strobe that has not ended: one more cycle, or the timeout. -/
theorem fsmInv_waitForStrobe (hp : Params.legal p = true) (h : FsmInv p f)
    (hs : f.state = .rwdsWait ∨ f.state = .readStart) : FsmInv p (waitForStrobe f) := by
  have hbound : phaseBound p f.state = 127 := by obtain hs | hs := hs <;> rw [hs] <;> rfl
  have hzero : burstBound f.state = 0 := by obtain hs | hs := hs <;> rw [hs] <;> rfl
  have hcount : f.burstCnt.toNat ≤ 0 := hzero ▸ h.burst
  unfold waitForStrobe
  split
  · exact fsmInv_enterState_sameWindow h (by obtain hs | hs := hs <;> simp [hs]) rfl
      (by obtain hs | hs := hs <;> rw [hs] <;> rfl) (by obtain hs | hs := hs <;> rw [hs] <;> rfl)
      hcount (fun _ => h.hint hzero)
  · rename_i hend
    refine fsmInv_stayCounting hp h ?_
    have hphase := h.phase
    simp only [hbound, phaseAtBound, Config.timeoutCycles, beq_iff_eq] at hphase hend ⊢
    omega

theorem fsmInv_ruleRwdsWait (hp : Params.legal p = true) (h : FsmInv p f) (hs : f.state = .rwdsWait) :
    FsmInv p (ruleRwdsWait x f).fsm := by
  have hzero : burstBound f.state = 0 := by rw [hs]; rfl
  have hcount : f.burstCnt.toNat ≤ 0 := hzero ▸ h.burst
  unfold ruleRwdsWait
  dsimp only
  split
  · exact fsmInv_enterState_sameWindow h (by simp [hs]) rfl (by rw [hs]; rfl) (by rw [hs]; rfl) hcount
      (fun _ => h.hint hzero)
  · exact fsmInv_waitForStrobe hp h (.inl hs)

theorem fsmInv_ruleReadStart (hp : Params.legal p = true) (h : FsmInv p f) (hs : f.state = .readStart) :
    FsmInv p (ruleReadStart x f).fsm := by
  have hzero : burstBound f.state = 0 := by rw [hs]; rfl
  have hcount : f.burstCnt.toNat ≤ 0 := hzero ▸ h.burst
  unfold ruleReadStart
  dsimp only
  split
  · exact fsmInv_enterState_sameWindow h (by simp [hs]) rfl (by rw [hs]; rfl) (by rw [hs]; rfl)
      (hcount.trans (Nat.zero_le _)) (fun hne => absurd hne (by decide))
  · exact fsmInv_waitForStrobe hp h (.inr hs)

theorem fsmInv_ruleReadAck (h : FsmInv p f) (hs : f.state = .readAck) : FsmInv p (ruleReadAck b f).fsm := by
  have hburst : f.burstCnt.toNat ≤ Config.burstMax - 1 := by simpa [hs, burstBound] using h.burst
  exact fsmInv_enterState_sameWindow h (by simp [hs]) rfl (by rw [hs]; rfl) (by rw [hs]; rfl)
    (countWord_burstCnt_le hburst) (fun hne => absurd hne (by decide))

theorem fsmInv_ruleReadBurst (h : FsmInv p f) (hs : f.state = .readBurst) : FsmInv p (ruleReadBurst x f).fsm := by
  have hpins := h.pins
  simp only [hs, pinTable, Prod.mk.injEq] at hpins
  obtain ⟨-, -, hdq, hrwds⟩ := hpins
  unfold ruleReadBurst
  dsimp only
  split
  · rename_i hmore
    exact fsmInv_enterState_sameWindow h (by simp [hs]) rfl (by rw [hs]; rfl) (by rw [hs]; rfl)
      (burstCnt_le_of_mayContinue (Bool.and_eq_true_iff.mp hmore).1) (fun hne => absurd hne (by decide))
  · exact fsmInv_enterState (by simp [clearWindow, pinTable, hdq, hrwds]) (Nat.zero_le _) (fun _ => rfl)
      (fun hne => absurd rfl hne) (fun _ hr => by cases hr)

theorem fsmInv_ruleLatencyWrite (hp : Params.legal p = true) (h : FsmInv p f) (hs : f.state = .latencyWrite) :
    FsmInv p (ruleLatencyWrite p f).fsm := by
  have hpins := h.pins
  simp only [hs, pinTable, Prod.mk.injEq] at hpins
  obtain ⟨hcs, hclk, -, -⟩ := hpins
  have hburst : f.burstCnt.toNat ≤ 0 := by simpa [hs, burstBound] using h.burst
  unfold ruleLatencyWrite
  dsimp only
  split
  · exact fsmInv_enterState (by simp [pinTable, hcs, hclk]) (hburst.trans (Nat.zero_le _))
      (fun hne => absurd hne (by decide)) (fun _ => h.command (by simp [hs]))
      (fun read hr => h.path read (by rw [hs]; exact hr))
  · rename_i hdone
    refine fsmInv_stayCounting hp h ?_
    have hphase := h.phase
    have hlat : 1 ≤ p.writeLatency := by simp [Params.legal] at hp; omega
    simp only [hs, phaseBound, latencyDone, beq_iff_eq] at hphase hdone ⊢
    omega

theorem fsmInv_ruleWPrep (h : FsmInv p f) (hs : f.state = .wPrep) : FsmInv p (ruleWPrep b f).fsm := by
  have hburst : f.burstCnt.toNat ≤ Config.burstMax - 1 := by simpa [hs, burstBound] using h.burst
  exact fsmInv_enterState_sameWindow h (by simp [hs]) rfl (by rw [hs]; rfl) (by rw [hs]; rfl)
    (countWord_burstCnt_le hburst) (fun hne => absurd hne (by decide))

theorem fsmInv_ruleWriteBurst (h : FsmInv p f) (hs : f.state = .writeBurst) : FsmInv p (ruleWriteBurst f).fsm := by
  have hburst : f.burstCnt.toNat ≤ Config.burstMax := by simpa [hs, burstBound] using h.burst
  unfold ruleWriteBurst
  dsimp only
  split
  · rename_i hmore
    exact fsmInv_enterState_sameWindow h (by simp [hs]) rfl (by rw [hs]; rfl) (by rw [hs]; rfl)
      (burstCnt_le_of_mayContinue hmore) (fun hne => absurd hne (by decide))
  · exact fsmInv_enterState_sameWindow h (by simp [hs]) rfl (by rw [hs]; rfl) (by rw [hs]; rfl) hburst
      (fun hne => absurd hne (by decide))

theorem fsmInv_ruleWriteFinish (h : FsmInv p f) (hs : f.state = .writeFinish) :
    FsmInv p (ruleWriteFinish f).fsm := by
  have hpins := h.pins
  simp only [hs, pinTable, Prod.mk.injEq] at hpins
  obtain ⟨hcs, -, hdq, hrwds⟩ := hpins
  have hread : isReadCommand f.ca = false := h.path false (by rw [hs]; rfl)
  exact fsmInv_enterState (by simp [pinTable, hcs, hdq, hrwds, hread]) (by simpa [hs, burstBound] using h.burst)
    (fun hne => absurd hne (by decide)) (fun _ => h.command (by simp [hs])) (fun _ hr => by cases hr)

theorem fsmInv_ruleTimeout (h : FsmInv p f) (hs : f.state = .timeout) : FsmInv p (ruleTimeout f).fsm := by
  have hread : isReadCommand f.ca = true := h.path true (by rw [hs]; rfl)
  have hburst : f.burstCnt.toNat ≤ 0 := by simpa [hs, burstBound] using h.burst
  exact fsmInv_enterState (by rw [h.pins, hs, hread]; rfl) (hburst.trans (Nat.zero_le _))
    (fun hne => absurd hne (by decide)) (fun _ => h.command (by simp [hs])) (fun _ hr => by cases hr)

theorem fsmInv_ruleCleanup : FsmInv p (ruleCleanup f).fsm :=
  fsmInv_enterState rfl (Nat.zero_le _) (fun _ => rfl) (fun hne => absurd rfl hne) (fun _ hr => by cases hr)

/-- Every rule keeps the invariant, in a build in its range (`10_state.md` R10 to R18). -/
theorem fsmInv_fsmRule (hp : Params.legal p = true) (h : FsmInv p f) : FsmInv p (fsmRule p b x f).fsm := by
  cases hs : f.state
  case idle => rw [fsmRule_idle hs]; exact fsmInv_ruleIdle h hs
  case cmd => rw [fsmRule_cmd hs]; exact fsmInv_ruleCmd hp h hs
  case rwdsWait => rw [fsmRule_rwdsWait hs]; exact fsmInv_ruleRwdsWait hp h hs
  case readStart => rw [fsmRule_readStart hs]; exact fsmInv_ruleReadStart hp h hs
  case readAck => rw [fsmRule_readAck hs]; exact fsmInv_ruleReadAck h hs
  case readBurst => rw [fsmRule_readBurst hs]; exact fsmInv_ruleReadBurst h hs
  case latencyWrite => rw [fsmRule_latencyWrite hs]; exact fsmInv_ruleLatencyWrite hp h hs
  case wPrep => rw [fsmRule_wPrep hs]; exact fsmInv_ruleWPrep h hs
  case writeBurst => rw [fsmRule_writeBurst hs]; exact fsmInv_ruleWriteBurst h hs
  case writeFinish => rw [fsmRule_writeFinish hs]; exact fsmInv_ruleWriteFinish h hs
  case timeout => rw [fsmRule_timeout hs]; exact fsmInv_ruleTimeout h hs
  case cleanup => rw [fsmRule_cleanup hs]; exact fsmInv_ruleCleanup

end Rules

/-- Every running tick of the machine keeps the invariant of the protocol controller. -/
theorem fsmInv_fsmAfter {s : State} (hp : Params.legal s.params = true) (h : FsmInv s.params s.fsm) :
    FsmInv s.params (fsmAfter s) :=
  fsmInv_everyTick _ (fsmInv_fsmRule hp h)

end Sys2Proof.Machine

/-! SUPPORT. Runs of cycles: the registers and the storage from one cycle to the next, what an acknowledged read returns
in a faithful run, and that a responsive run has no timeout; the round trip (`20_memory.md` R64 to R66, R74). -/

namespace Sys2Proof.Machine

/-! ### How the protocol FSM comes to a state -/

/-- The transition table of the protocol FSM (`42_protocol_fsm.md` R142 to R160). -/
def nextFsmState (p : Params) (b : BusIn) (x : Phy) (f : Fsm) : FsmState :=
  match f.state with
  | .idle => if busRequest b then .cmd else .idle
  | .cmd => if commandDone f then (if isReadCommand f.ca then .rwdsWait else .latencyWrite) else .cmd
  | .rwdsWait => if qual f x then .readStart else if phaseAtBound f then .timeout else .rwdsWait
  | .readStart => if qual f x then .readAck else if phaseAtBound f then .timeout else .readStart
  | .readAck => .readBurst
  | .readBurst => if mayContinue f && qual f x then .readAck else .idle
  | .latencyWrite => if latencyDone p f then .wPrep else .latencyWrite
  | .wPrep => .writeBurst
  | .writeBurst => if mayContinue f then .wPrep else .writeFinish
  | .writeFinish => .cleanup
  | .timeout => .cleanup
  | .cleanup => .idle

section Rules
variable {p : Params} {b : BusIn} {x : Phy} {f : Fsm}

/-- The rules move the state register by the table. -/
theorem fsmRule_state : (fsmRule p b x f).fsm.state = nextFsmState p b x f := by
  cases hs : f.state <;>
    simp [fsmRule, nextFsmState, hs, ruleIdle, ruleCmd, ruleRwdsWait, ruleReadStart, ruleReadAck, ruleReadBurst,
      ruleLatencyWrite, ruleWPrep, ruleWriteBurst, ruleWriteFinish, ruleTimeout, ruleCleanup, waitForStrobe,
      apply_ite FsmNext.fsm, apply_ite Fsm.state]

/-- Every tick that changes state clears the phase counter (`43_burst_timeout_supervisor.md` R182). -/
theorem fsmRule_phaseCnt_of_move (h : nextFsmState p b x f ≠ f.state) : (fsmRule p b x f).fsm.phaseCnt = 0 := by
  cases hs : f.state <;>
    simp only [nextFsmState, fsmRule, hs, ruleIdle, ruleCmd, ruleRwdsWait, ruleReadStart, ruleReadAck, ruleReadBurst,
      ruleLatencyWrite, ruleWPrep, ruleWriteBurst, ruleWriteFinish, ruleTimeout, ruleCleanup, waitForStrobe] at h ⊢ <;>
    (repeat' split) <;> simp_all

/-- A wait for the strobe goes on only while the strobe is not qualified and the bound not reached
(`42_protocol_fsm.md` R147, R149). -/
theorem fsmRule_of_wait (hs : f.state = .rwdsWait ∨ f.state = .readStart) (h : nextFsmState p b x f = f.state) :
    qual f x = false ∧ phaseAtBound f = false ∧ (fsmRule p b x f).fsm = stayCounting f := by
  obtain hs | hs := hs
  all_goals
    simp only [nextFsmState, hs] at h
    split at h
    · cases h
    · rename_i hq
      split at h
      · cases h
      · rename_i hbound
        rw [Bool.not_eq_true] at hq hbound
        exact ⟨hq, hbound, by simp [fsmRule, hs, ruleRwdsWait, ruleReadStart, waitForStrobe, hq, hbound]⟩

/-- `READ_ACK` is entered by a capture alone (`42_protocol_fsm.md` R148, R151). -/
theorem nextFsmState_eq_readAck_iff : nextFsmState p b x f = .readAck ↔ captureNow f x = true := by
  cases hs : f.state <;> simp [nextFsmState, captureNow, hs, ite_eq_iff]

/-- `TIMEOUT` is entered by the condition X1 alone (`60_exceptions.md` R290). -/
theorem nextFsmState_eq_timeout_iff : nextFsmState p b x f = .timeout ↔ timeoutNow f x = true := by
  cases hs : f.state <;> simp [nextFsmState, timeoutNow, hs, ite_eq_iff, and_comm]

/-- A capture takes the sampled word and leaves the window as it is (`42_protocol_fsm.md` R148, R151). -/
theorem fsmRule_of_captureNow (h : captureNow f x = true) : (fsmRule p b x f).fsm = captureWord x f := by
  cases hs : f.state <;> simp_all [captureNow, fsmRule, ruleReadStart, ruleReadBurst]

end Rules

/-! ### One cycle of a run -/

@[simp] theorem cycleAt_inp (l : Nat → Inputs) (s : State) (n : Nat) : (cycleAt l s n).inp = l n := by
  cases n <;> rfl

@[simp] theorem cycleAt_params (l : Nat → Inputs) (s : State) (n : Nat) : (cycleAt l s n).params = s.params := by
  induction n with
  | zero => rfl
  | succ n ih => exact (sysTick_params _).trans ih

section Cycle
variable {l : Nat → Inputs} {s : State} {n : Nat}

theorem cycleAt_succ_fsm (hrst : (l n).rst = false) : (cycleAt l s (n + 1)).fsm = fsmAfter (cycleAt l s n) := by
  show (sysTick (cycleAt l s n)).fsm = _
  rw [sysTick_eq _ (by rwa [cycleAt_inp]), runTickCalling_fsm]

theorem cycleAt_succ_devMem (hrst : (l n).rst = false) :
    (cycleAt l s (n + 1)).devMem = deviceAfter (fsmNow (cycleAt l s n)).call (cycleAt l s n) := by
  show (sysTick (cycleAt l s n)).devMem = _
  rw [sysTick_eq _ (by rwa [cycleAt_inp]), runTickCalling_devMem]

theorem cycleAt_succ_state (hrst : (l n).rst = false) :
    (cycleAt l s (n + 1)).fsm.state =
      nextFsmState (cycleAt l s n).params (adapterIn (cycleAt l s n)) (cycleAt l s n).phy (cycleAt l s n).fsm := by
  rw [cycleAt_succ_fsm hrst, fsmAfter, everyTick_state, fsmNow, fsmRule_state]

/-- The invariant of the protocol controller holds along a run without reset. -/
theorem cycleAt_fsmInv (hinv : s.Inv) (hrst : ∀ k < n, (l k).rst = false) :
    FsmInv s.params (cycleAt l s n).fsm := by
  induction n with
  | zero => exact hinv.fsm
  | succ n ih =>
    have hlegal : Params.legal (cycleAt l s n).params = true := by
      rw [cycleAt_params]
      exact (Bool.and_eq_true_iff.mp hinv.build).1
    have hkept := fsmInv_fsmAfter hlegal (by rw [cycleAt_params]; exact ih fun k hk => hrst k (by omega))
    rwa [cycleAt_params, ← cycleAt_succ_fsm (hrst n (by omega))] at hkept

/-! ### An acknowledged read -/

/-- In a faithful run the word shown in `READ_ACK` is the stored one, of the window's word number `burst_cnt`
(`20_memory.md` R64, `44_bus_adapter.md` R199). -/
theorem busReadData_of_faithfulRun {init : Nat → Byte} (hrst : (l n).rst = false) (hfaith : FaithfulRun init l s)
    (hack : (cycleAt l s (n + 1)).fsm.state = .readAck) :
    busReadData (cycleAt l s (n + 1)) =
      deviceRead init (cycleAt l s (n + 1)).fsm.ca (cycleAt l s (n + 1)).fsm.burstCnt.toNat
        (cycleAt l s (n + 1)).devMem := by
  have hcapture : captureNow (cycleAt l s n).fsm (cycleAt l s n).phy = true :=
    nextFsmState_eq_readAck_iff.mp ((cycleAt_succ_state hrst).symm.trans hack)
  have hword := hfaith n (by rwa [cycleAt_inp]) hcapture
  have hprep : (cycleAt l s n).fsm.state ≠ .wPrep := fun h => by simp [captureNow, h] at hcapture
  have hfsm : (cycleAt l s (n + 1)).fsm =
      everyTick (cycleAt l s n).phy (captureWord (cycleAt l s n).phy (cycleAt l s n).fsm) := by
    rw [cycleAt_succ_fsm hrst, fsmAfter, fsmNow, fsmRule_of_captureNow hcapture]
  rw [busReadData, if_neg (by simp [hack]), cycleAt_succ_devMem hrst, deviceAfter_of_ne_wPrep _ hprep, hfsm]
  simpa using hword

end Cycle

/-! ### A responsive run has no timeout -/

/-- Cycle `k` belongs to a wait for the strobe that was entered in cycle `e`: in no cycle before `k` was the strobe
qualified (`42_protocol_fsm.md` R147, R149). -/
structure WaitsSince (l : Nat → Inputs) (s : State) (e k : Nat) : Prop where
  age : e + (cycleAt l s k).fsm.phaseCnt.toNat = k
  same : (cycleAt l s e).fsm.state = (cycleAt l s k).fsm.state
  entered : (cycleAt l s e).fsm.phaseCnt = 0
  unqualified : ∀ j, e ≤ j → j < k → qual (cycleAt l s j).fsm (cycleAt l s j).phy = false

section Responsive
variable {l : Nat → Inputs} {s : State} {k : Nat}

theorem waitsSince_self (h : (cycleAt l s k).fsm.phaseCnt = 0) : WaitsSince l s k k where
  age := by simp [h]
  same := rfl
  entered := h
  unqualified j hj hk := absurd hk (by omega)

/-- A wait has a first cycle. -/
theorem exists_waitsSince (hinv : s.Inv) (hidle : s.fsm.state = .idle) (hrst : ∀ j < k, (l j).rst = false)
    (hwait : (cycleAt l s k).fsm.state = .rwdsWait ∨ (cycleAt l s k).fsm.state = .readStart) :
    ∃ e, WaitsSince l s e k := by
  induction k with
  | zero =>
    change s.fsm.state = .rwdsWait ∨ s.fsm.state = .readStart at hwait
    simp [hidle] at hwait
  | succ k ih =>
    have hr : (l k).rst = false := hrst k (by omega)
    have hnext := cycleAt_succ_state (s := s) hr
    by_cases hmove : (cycleAt l s (k + 1)).fsm.state = (cycleAt l s k).fsm.state
    · rw [hmove] at hwait
      obtain ⟨hq, hbound, hstay⟩ := fsmRule_of_wait hwait (hnext.symm.trans hmove)
      obtain ⟨e, hage, hsame, hentered, hun⟩ := ih (fun j hj => hrst j (by omega)) hwait
      have hphase : (cycleAt l s k).fsm.phaseCnt.toNat < 128 := by
        have hle := (cycleAt_fsmInv (n := k) hinv fun j hj => hrst j (by omega)).phase
        obtain hs | hs := hwait <;> rw [hs] at hle <;> exact Nat.lt_succ_of_le hle
      refine ⟨e, ?_, hsame.trans hmove.symm, hentered, fun j hej hjk => ?_⟩
      · rw [cycleAt_succ_fsm hr, fsmAfter, everyTick_phaseCnt, fsmNow, hstay,
          stayCounting_phaseCnt_toNat (by omega)]
        omega
      · obtain hlt | rfl : j < k ∨ j = k := by omega
        · exact hun j hej hlt
        · exact hq
    · refine ⟨k + 1, waitsSince_self ?_⟩
      rw [cycleAt_succ_fsm hr, fsmAfter, everyTick_phaseCnt]
      exact fsmRule_phaseCnt_of_move (hnext ▸ hmove)

/-- In a responsive run no wait for the strobe reaches its bound (`20_memory.md` R66, `60_exceptions.md` R290). -/
theorem timeoutNow_of_responsiveRun (hinv : s.Inv) (hidle : s.fsm.state = .idle) (hrst : ∀ j ≤ k, (l j).rst = false)
    (hresp : ResponsiveRun l s) : timeoutNow (cycleAt l s k).fsm (cycleAt l s k).phy = false := by
  rw [Bool.eq_false_iff]
  intro htimeout
  simp only [timeoutNow, phaseAtBound, Bool.and_eq_true, Bool.or_eq_true, beq_iff_eq, Bool.not_eq_true'] at htimeout
  obtain ⟨⟨hwait, hbound⟩, hq⟩ := htimeout
  obtain ⟨e, hage, hsame, hentered, hun⟩ := exists_waitsSince hinv hidle (fun j hj => hrst j (by omega)) hwait
  have hstrobe : StrobeInTime l s e := by
    obtain hs | hs := hwait
    · exact hresp.command e (hsame.trans hs) hentered
    · exact hresp.firstWord e (hsame.trans hs) hentered
  obtain ⟨j, hj, hreset | hqual⟩ := hstrobe
  · simp [hrst (e + j) (by omega)] at hreset
  · obtain hlt | heq : e + j < k ∨ e + j = k := by omega
    · simp [hun (e + j) (by omega) hlt] at hqual
    · simp [heq, hq] at hqual

/-- An acknowledgment in a read window of a responsive run shows a captured word: it is not a forced one, and the write
path acknowledges no read (`42_protocol_fsm.md` R162). -/
theorem readAck_of_responsiveRun (hinv : s.Inv) (hidle : s.fsm.state = .idle) (hrst : ∀ j ≤ k, (l j).rst = false)
    (hresp : ResponsiveRun l s) (hack : ackNow (cycleAt l s (k + 1)) = true)
    (hread : isReadCommand (cycleAt l s (k + 1)).fsm.ca = true) : (cycleAt l s (k + 1)).fsm.state = .readAck := by
  have hfsm := cycleAt_fsmInv (n := k + 1) hinv fun j hj => hrst j (by omega)
  have hnext := cycleAt_succ_state (s := s) (hrst k le_rfl)
  cases hs : (cycleAt l s (k + 1)).fsm.state
  case readAck => rfl
  case wPrep => simp [hfsm.path false (by rw [hs]; rfl)] at hread
  case timeout =>
    have htimeout := nextFsmState_eq_timeout_iff.mp (hnext.symm.trans hs)
    simp [timeoutNow_of_responsiveRun hinv hidle hrst hresp] at htimeout
  all_goals simp [ackNow, ackOf, hs] at hack

end Responsive

/-! ### The bytes of a window's word -/

/-- The bytes of the window's current word lie in the two half-words from `windowHalfword` on (`20_memory.md` R52). -/
theorem deviceByteAddr_eq_windowHalfword (s : State) (b : Nat) :
    deviceByteAddr s.fsm.ca s.fsm.burstCnt.toNat b = 2 * ((windowHalfword s + b / 2) % 2 ^ 22) + b % 2 := by
  rw [deviceByteAddr, windowHalfword, Nat.mod_add_mod]

/-- A command word with its reserved bits right names an even half-word (`20_memory.md` R52). -/
theorem commandHalfword_even {ca : CommandWord} (h : reservedBitsOk ca) : (commandHalfword ca).toNat % 2 = 0 := by
  have hbit : (commandHalfword ca).getLsbD 0 = false := by
    have hca := congrArg (fun v => v.getLsbD 0) h
    rw [commandHalfword, BitVec.getLsbD_append, BitVec.getLsbD_extractLsb']
    simpa using hca
  rw [← BitVec.testBit_toNat, Nat.testBit_zero] at hbit
  simpa using hbit

theorem windowHalfword_even {s : State} (h : reservedBitsOk s.fsm.ca) : windowHalfword s % 2 = 0 := by
  have heven := commandHalfword_even h
  rw [windowHalfword]
  omega

/-- The words at two different addresses have no byte in common. -/
theorem deviceByteAddr_ne_of_windowHalfword_ne {s t : State} (hs : reservedBitsOk s.fsm.ca)
    (ht : reservedBitsOk t.fsm.ca) (hne : windowHalfword s ≠ windowHalfword t) {b c : Nat} (hb : b < 4) (hc : c < 4) :
    deviceByteAddr s.fsm.ca s.fsm.burstCnt.toNat b ≠ deviceByteAddr t.fsm.ca t.fsm.burstCnt.toNat c := by
  have hseven := windowHalfword_even hs
  have hteven := windowHalfword_even ht
  have hslt : windowHalfword s < 2 ^ 22 := Nat.mod_lt _ (by decide)
  have htlt : windowHalfword t < 2 ^ 22 := Nat.mod_lt _ (by decide)
  rw [deviceByteAddr_eq_windowHalfword, deviceByteAddr_eq_windowHalfword]
  omega

/-! ### A stored word along a run -/

section Stored
variable {l : Nat → Inputs} {s : State} {n : Nat}

/-- The transmit of cycle `n` stores the selected bytes of the word on the bus (`20_memory.md` R65,
`42_protocol_fsm.md` R155). -/
theorem deviceByte_cycleAt_transmit (init : Nat → Byte) (hrst : (l n).rst = false)
    (hs : (cycleAt l s n).fsm.state = .wPrep) {b : Nat} (hb : b < 4) :
    deviceByte init (cycleAt l s (n + 1)).devMem
        (deviceByteAddr (cycleAt l s n).fsm.ca (cycleAt l s n).fsm.burstCnt.toNat b) =
      if (adapterIn (cycleAt l s n)).sel.getLsbD (3 - b) then beatByte (adapterIn (cycleAt l s n)).datW b
      else deviceByte init (cycleAt l s n).devMem
        (deviceByteAddr (cycleAt l s n).fsm.ca (cycleAt l s n).fsm.burstCnt.toNat b) := by
  have hcall : (fsmNow (cycleAt l s n)).call =
      some ⟨(adapterIn (cycleAt l s n)).datW, ~~~(adapterIn (cycleAt l s n)).sel⟩ := by
    rw [fsmNow, fsmRule_wPrep hs, ruleWPrep]
  rw [cycleAt_succ_devMem hrst, hcall, deviceAfter_wPrep _ hs, deviceByte_deviceWrite_sel init _ _ _ _ _ hb]

/-- A byte stays along a run in which no transmit puts a byte there (`20_memory.md` R65). -/
theorem byte_cycleAt_of_no_transmit {a m : Nat} (hnm : n ≤ m) (hrst : ∀ k < m, (l k).rst = false)
    (hother : ∀ k, n ≤ k → k < m → (cycleAt l s k).fsm.state = .wPrep →
      ∀ b < 4, a ≠ deviceByteAddr (cycleAt l s k).fsm.ca (cycleAt l s k).fsm.burstCnt.toNat b) :
    (cycleAt l s m).devMem.byte a = (cycleAt l s n).devMem.byte a := by
  induction m, hnm using Nat.le_induction with
  | base => rfl
  | succ m hnm ih =>
    rw [cycleAt_succ_devMem (hrst m (by omega)), byte_deviceAfter _ (hother m hnm (by omega))]
    exact ih (fun k hk => hrst k (by omega)) fun k hnk hkm => hother k hnk (by omega)

end Stored

/-! ### The round trip -/

/-- Settles O30. The contract clauses are `deviceByte_deviceWrite_sel` at addresses that do not depend on the direction.
In a run the acknowledged read shows the stored word (it is no timeout), and since the write of cycle `n` no transmit has
touched its bytes: command words name even half-words, so that words at different addresses are disjoint. -/
theorem storedWordsReadBack : Obligations.StoredWordsReadBack := by
  refine ⟨fun init adr k w m => ?_, ?_⟩
  · have hpartial : ∀ (sel : BitVec 4) (b : Nat), b < 4 →
        beatByte (deviceRead init (encodeCommand adr false) k
            (deviceWrite (encodeCommand adr true) k ⟨w, ~~~sel⟩ m)) b =
          if sel.getLsbD (3 - b) then beatByte w b
          else beatByte (deviceRead init (encodeCommand adr false) k m) b := by
      intro sel b hb
      rw [beatByte_deviceRead _ _ _ _ _ hb, beatByte_deviceRead _ _ _ _ _ hb,
        deviceByteAddr_encodeCommand_direction adr false true, deviceByte_deviceWrite_sel _ _ _ _ _ _ hb]
    refine ⟨word_ext_beatByte fun b hb => ?_, hpartial, ?_⟩
    · have hbit : (0b1111#4).getLsbD (3 - b) = true := by interval_cases b <;> rfl
      exact (hpartial 0b1111 b hb).trans (if_pos hbit)
    · simp only [deviceRead, deviceByteAddr_encodeCommand_add]
  · intro init l s n m hinv hidle hrst hfaith hresp hnm hprep hack hread haddr hother b hb
    obtain ⟨k, rfl⟩ : ∃ k, m = k + 1 := ⟨m - 1, by omega⟩
    have hcommand : ∀ j ≤ k, (cycleAt l s j).fsm.state = .wPrep → reservedBitsOk (cycleAt l s j).fsm.ca :=
      fun j hj hs => (cycleAt_fsmInv hinv fun i hi => hrst i (by omega)).command (by simp [hs])
    have hstate := readAck_of_responsiveRun hinv hidle (fun j hj => hrst j (by omega)) hresp hack hread
    have hbyte := byte_cycleAt_of_no_transmit (l := l) (s := s) (n := n + 1) (m := k + 1)
      (a := deviceByteAddr (cycleAt l s n).fsm.ca (cycleAt l s n).fsm.burstCnt.toNat b) (by omega)
      (fun j hj => hrst j (by omega)) fun j hnj hjm hs c hc =>
        deviceByteAddr_ne_of_windowHalfword_ne (hcommand n (by omega) hprep) (hcommand j (by omega) hs)
          (hother j hnj hjm hs).symm hb hc
    rw [busReadData_of_faithfulRun (hrst k (by omega)) hfaith hstate, beatByte_deviceRead _ _ _ _ _ hb,
      deviceByteAddr_eq_windowHalfword, haddr, ← deviceByteAddr_eq_windowHalfword, deviceByte, hbyte]
    exact deviceByte_cycleAt_transmit init (hrst n (by omega)) hprep hb

end Sys2Proof.Machine

/-! SUPPORT. The codes that are no operation: the reserved bits of a command word as the decoder's masks see them, and
the FSM codes without a state (`30_encoding.md` R83, R96). -/

namespace Sys2Proof.Machine

/-- The decoder's mask is the reserved bits and the direction bit (`30_encoding.md` R81). -/
theorem and_decodeMask (v : CommandWord) :
    v &&& 0xFFF80000FFF9#48 = v &&& 0x7FF80000FFF9#48 ||| if v.getLsbD 47 then 0x800000000000#48 else 0#48 := by
  calc v &&& 0xFFF80000FFF9#48
      = v &&& (0x7FF80000FFF9#48 ||| BitVec.twoPow 48 47) := rfl
    _ = v &&& 0x7FF80000FFF9#48 ||| v &&& BitVec.twoPow 48 47 := BitVec.and_or_distrib_left
    _ = _ := by rw [BitVec.and_twoPow]; rfl

/-- The reserved bits are right exactly in the words that match a read's or a write's row of the table. -/
theorem reservedBitsOk_iff_matches (v : CommandWord) :
    reservedBitsOk v ↔
      v &&& 0xFFF80000FFF9#48 = 0xA00000000000#48 ∨ v &&& 0xFFF80000FFF9#48 = 0x200000000000#48 := by
  constructor
  · intro h
    rw [and_decodeMask, h]
    cases v.getLsbD 47
    · exact .inr rfl
    · exact .inl rfl
  · have hmask : v &&& 0x7FF80000FFF9#48 = v &&& 0xFFF80000FFF9#48 &&& 0x7FFFFFFFFFFF#48 := by
      rw [BitVec.and_assoc]; rfl
    rintro (h | h) <;> rw [reservedBitsOk, hmask, h] <;> rfl

/-- A 48-bit word on the `CA` port: the code is never too wide, so that only the two rows of the table decide. -/
theorem decode_ca (v : CommandWord) :
    decode ⟨.ca, v.toNat, .none⟩ =
      if v &&& 0xFFF80000FFF9#48 = 0xA00000000000#48 then .ok (.caRd (v.extractLsb' 16 19) (v.extractLsb' 1 2))
      else if v &&& 0xFFF80000FFF9#48 = 0x200000000000#48 then
        .ok (.caWr (v.extractLsb' 16 19) (v.extractLsb' 1 2))
      else .error .notACommandWord := by
  have hwidth : ¬ v.toNat ≥ 2 ^ 48 := Nat.not_le.mpr v.isLt
  simp only [decode, decodeCa, hwidth, if_false, ne_eq, not_true_eq_false, BitVec.ofNat_toNat, BitVec.setWidth_eq]

theorem decode_ca_eq_notACommandWord_iff (v : CommandWord) :
    decode ⟨.ca, v.toNat, .none⟩ = .error .notACommandWord ↔ ¬ reservedBitsOk v := by
  rw [reservedBitsOk_iff_matches, decode_ca]
  split
  next hread => simp [hread]
  next hread =>
    split
    next hwrite => simp [hwrite]
    next hwrite => simp [hread, hwrite]

theorem decode_fsm_noSuchState {n : Nat} (hlow : 12 ≤ n) (hhigh : n ≤ 15) :
    decode ⟨.fsm, n, .none⟩ = .error .noSuchState := by
  interval_cases n <;> rfl

/-- Settles O4: the decoder's two rows together are the test of the reserved bits, whatever the direction bit is. -/
theorem illegalCodesRejected : Obligations.IllegalCodesRejected :=
  ⟨fun _ => decode_fsm_noSuchState, decode_ca_eq_notACommandWord_iff⟩

end Sys2Proof.Machine

/-! SUPPORT. The stream codes: the partner's half is put on the port, the engine's own half does not depend on it, and
the outputs of the cycle are what the two halves make together (`30_encoding.md` R89, `45_dma_engines.md` R241 to R244). -/

namespace Sys2Proof.Machine

/-! ### The partner's half of a stream code -/

section StreamCodes
variable (e : EngineId) (data : Word) (s : State)

theorem exec_strmXfer : exec (.strmXfer e data) s = .next (sysTick (s.putPartner e true data)) := rfl

/-- The writer drives `valid`: an underflow is the partner's `ready` at 0 (`45_dma_engines.md` R244). -/
theorem exec_strmUnderflow_writer :
    exec (.strmUnderflow .writer data) s = .next (sysTick (s.putPartner .writer false data)) := rfl

theorem exec_strmOverflow_writer :
    exec (.strmOverflow .writer data) s = .next (sysTick (s.putPartner .writer true data)) := rfl

/-- The reader drives `ready`: an underflow is the partner's `valid` at 1 (`45_dma_engines.md` R244). -/
theorem exec_strmUnderflow_reader :
    exec (.strmUnderflow .reader data) s = .next (sysTick (s.putPartner .reader true data)) := rfl

theorem exec_strmOverflow_reader :
    exec (.strmOverflow .reader data) s = .next (sysTick (s.putPartner .reader false data)) := rfl

theorem exec_strmIdle : exec (.strmIdle e data) s = .next (sysTick (s.putPartner e false data)) := rfl

end StreamCodes

/-! ### The lines of a port whose partner is put -/

section PutPartner
variable (s : State) (e : EngineId) (on : Bool) (data : Word)

@[simp] theorem putPartner_engine (d : EngineId) : (s.putPartner e on data).engine d = s.engine d := by
  cases d <;> simp [State.engine]

@[simp] theorem partnerLevel_putPartner : partnerLevel (s.putPartner e on data) e = on := by
  simp [partnerLevel]

@[simp] theorem sinkDataIn_putPartner : sinkDataIn (s.putPartner .reader on data) = data := rfl

@[simp] theorem busReadData_putPartner : busReadData (s.putPartner e on data) = busReadData s := by
  simp [busReadData]

/-- An engine's own level does not look at its partner (`45_dma_engines.md` R241, R242). -/
@[simp] theorem engineLevel_putPartner (d : EngineId) : engineLevel (s.putPartner e on data) d = engineLevel s d := by
  simp [engineLevel, ackTo, ackNow]

end PutPartner

/-! ### The stream outputs of the cycle -/

/-- What an engine's outputs show of its streaming port: the two levels, the word, and the diagnostics, which are one
level without the other (`45_dma_engines.md` R243, R244). -/
structure ShowsStream (o : EngOut) (v r : Bool) (w : Word) : Prop where
  valid : o.valid = v
  ready : o.ready = r
  data : o.data = w
  overflow : o.overflow = (r && !v)
  underflow : o.underflow = (v && !r)

section Outputs
variable {s : State} (hrst : s.inp.rst = false)
include hrst

theorem sysTick_showsStream (e : EngineId) :
    ShowsStream ((sysTick s).out.eng e) (strmValid s e) (strmReady s e) (strmData s e) := by
  rw [sysTick_eq s hrst, runTickCalling_out]
  cases e <;> exact ⟨rfl, rfl, rfl, rfl, rfl⟩

/-- The writer is the source: its own level is `valid`, its partner's `ready`, and the word is the bus's. -/
theorem sysTick_putPartner_writer_showsStream (on : Bool) (data : Word) :
    ShowsStream (sysTick (s.putPartner .writer on data)).out.writer (engineLevel s .writer) on (busReadData s) := by
  simpa [Outputs.eng, strmValid, strmReady, strmData] using
    sysTick_showsStream (s := s.putPartner .writer on data) (by simpa using hrst) .writer

/-- The reader is the sink: its partner's level is `valid`, its own `ready`, and the word is the partner's. -/
theorem sysTick_putPartner_reader_showsStream (on : Bool) (data : Word) :
    ShowsStream (sysTick (s.putPartner .reader on data)).out.reader on (engineLevel s .reader) data := by
  simpa [Outputs.eng, strmValid, strmReady, strmData] using
    sysTick_showsStream (s := s.putPartner .reader on data) (by simpa using hrst) .reader

end Outputs

/-- Settles O46: of the four codes on an engine's port two put the partner's level at 1 and two at 0, and the outputs
follow from that level and the engine's own. That a code puts only the partner's half is the model's choice, log
entry 1. -/
theorem streamCodesOfACycle : Obligations.StreamCodesOfACycle := by
  intro data s own hrst
  constructor
  · rintro rfl
    obtain ⟨hv, hr, hd, ho, hu⟩ := sysTick_putPartner_writer_showsStream hrst true data
    obtain ⟨hv', hr', hd', ho', hu'⟩ := sysTick_putPartner_writer_showsStream hrst false data
    refine ⟨_, _, _, _, exec_strmXfer .writer data s, exec_strmOverflow_writer data s,
      exec_strmUnderflow_writer data s, exec_strmIdle .writer data s, ?_, ?_⟩
    · simp [hv, hr, hd, ho, hu]
    · simp [hv', hr', hd', ho', hu']
  · rintro rfl
    obtain ⟨hv, hr, hd, ho, hu⟩ := sysTick_putPartner_reader_showsStream hrst true data
    obtain ⟨hv', hr', hd', ho', hu'⟩ := sysTick_putPartner_reader_showsStream hrst false data
    refine ⟨_, _, _, _, exec_strmXfer .reader data s, exec_strmUnderflow_reader data s,
      exec_strmOverflow_reader data s, exec_strmIdle .reader data s, ?_, ?_⟩
    · simp [hv, hr, hd, ho, hu]
    · simp [hv', hr', hd', ho', hu']

end Sys2Proof.Machine

/-! SUPPORT. The PHY shift layer in a tick: what the sampler finds on the lines, and what a word that comes back over
the pins is (`40_phy_shift.md` R112 to R117). -/

namespace Sys2Proof.Machine

/-! ### Four beats are a word -/

theorem toNat_append_eq_add {j k : Nat} (x : BitVec j) (y : BitVec k) : (x ++ y).toNat = x.toNat * 2 ^ k + y.toNat := by
  rw [BitVec.toNat_append, ← Nat.shiftLeft_add_eq_or_of_lt y.isLt, Nat.shiftLeft_eq]

/-- The sampled word as a number (`40_phy_shift.md` R115). -/
theorem pinsWord_toNat (p : Pins) :
    (pinsWord p).toNat = p.d0.toNat * 2 ^ 24 + p.d1.toNat * 2 ^ 16 + p.d2.toNat * 2 ^ 8 + p.d3.toNat := by
  simp only [pinsWord, toNat_append_eq_add]
  omega

/-- The strobe samples as a number (`40_phy_shift.md` R115, R116). -/
theorem pinsStrobe_toNat (p : Pins) :
    (pinsStrobe p).toNat = p.s0.toNat * 8 + p.s1.toNat * 4 + p.s2.toNat * 2 + p.s3.toNat := by
  simp only [pinsStrobe, toNat_append_eq_add, BitVec.toNat_ofBool]
  omega

/-- The byte of a beat is a base-256 digit of the word (`30_encoding.md` R98). -/
theorem beatByte_toNat (w : Word) (b : Nat) : (beatByte w b).toNat = w.toNat / 2 ^ (24 - 8 * b) % 256 := by
  rw [beatByte, BitVec.extractLsb'_toNat, Nat.shiftRight_eq_div_pow]

/-- The strobe level of a beat is a binary digit of the mask (`30_encoding.md` R98). -/
theorem beatStrobe_toNat (m : BitVec 4) (b : Nat) : (beatStrobe m b).toNat = m.toNat / 2 ^ (3 - b) % 2 := by
  rw [beatStrobe, BitVec.getLsbD, Nat.toNat_testBit]

/-- The four bytes of a word, beat 0 most significant, put together again (`40_phy_shift.md` R115). -/
theorem pinsWord_of_beats {p : Pins} {w : Word} (h0 : p.d0 = beatByte w 0) (h1 : p.d1 = beatByte w 1)
    (h2 : p.d2 = beatByte w 2) (h3 : p.d3 = beatByte w 3) : pinsWord p = w := by
  have hw := w.isLt
  apply BitVec.eq_of_toNat_eq
  rw [pinsWord_toNat, h0, h1, h2, h3]
  simp only [beatByte_toNat]
  omega

/-- The four strobe levels of a mask, bit 3 that of beat 0, put together again (`40_phy_shift.md` R115, R116). -/
theorem pinsStrobe_of_beats {p : Pins} {m : BitVec 4} (h0 : p.s0 = beatStrobe m 0) (h1 : p.s1 = beatStrobe m 1)
    (h2 : p.s2 = beatStrobe m 2) (h3 : p.s3 = beatStrobe m 3) : pinsStrobe p = m := by
  have hm := m.isLt
  apply BitVec.eq_of_toNat_eq
  rw [pinsStrobe_toNat, h0, h1, h2, h3]
  simp only [beatStrobe_toNat]
  omega

/-! ### What the sampler finds on the lines -/

section Lines
variable {s : State}

/-- Lanes that the core drives are sampled with its own output (`40_phy_shift.md` R115). -/
theorem pinsWord_linesNow_of_driven (hw : windowDisturbed s = false) (h : s.fsm.dqOe = true) :
    pinsWord (linesNow s) = s.phy.txWord := by
  apply pinsWord_of_beats <;> simp [linesNow, linesSampled, hw, h]

/-- The same for the strobe line. -/
theorem pinsStrobe_linesNow_of_driven (hw : windowDisturbed s = false) (h : s.fsm.rwdsOe = true) :
    pinsStrobe (linesNow s) = s.phy.txMask := by
  apply pinsStrobe_of_beats <;> simp [linesNow, linesSampled, hw, h]

/-- Released lanes carry what the environment drives, in a disturbed window as in any other. -/
theorem pinsWord_linesNow_of_released (h : s.fsm.dqOe = false) : pinsWord (linesNow s) = pinsWord s.inp.pins := by
  unfold linesNow
  split
  · rfl
  · simp [linesSampled, pinsWord, h]

/-- The same for the strobe line. -/
theorem pinsStrobe_linesNow_of_released (h : s.fsm.rwdsOe = false) :
    pinsStrobe (linesNow s) = pinsStrobe s.inp.pins := by
  unfold linesNow
  split
  · rfl
  · simp [linesSampled, pinsStrobe, h]

/-- With the pins looped back the sampler finds the core's own output, whether the core drives a lane or not
(`40_phy_shift.md` R117). -/
theorem linesNow_of_loopback (h : s.inp.pins = loopbackPins s.phy) : linesNow s = loopbackPins s.phy := by
  simp [linesNow, linesSampled, loopbackPins, h]

end Lines

theorem pinsWord_loopbackPins (x : Phy) : pinsWord (loopbackPins x) = x.txWord :=
  pinsWord_of_beats rfl rfl rfl rfl

theorem pinsStrobe_loopbackPins (x : Phy) : pinsStrobe (loopbackPins x) = x.txMask :=
  pinsStrobe_of_beats rfl rfl rfl rfl

/-! ### The output registers after a tick -/

section Transmit
variable (s : State)

theorem exec_phyShiftout (w : Word) (m : BitVec 4) :
    exec (.phyShiftout w m) s = .next (sysTickCalling (some ⟨w, m⟩) s) := rfl

theorem exec_phyIdle : exec .phyIdle s = .next (sysTickCalling none s) := rfl

theorem exec_phySamplein : exec (.phySamplein ()) s = .next (sysTick s) := rfl

/-- A call queues its word and its mask (`40_phy_shift.md` R112). -/
theorem runTickCalling_some_queuedWord (w : Word) (m : BitVec 4) :
    QueuedWord (runTickCalling (some ⟨w, m⟩) s).phy w m :=
  ⟨rfl, rfl, rfl⟩

/-- A tick without a call queues the idle word (`40_phy_shift.md` R113). -/
theorem runTickCalling_none_idleWord : IdleWord (runTickCalling none s).phy :=
  ⟨rfl, rfl, rfl⟩

/-- A tick without a call stores nothing (`20_memory.md` R65). -/
theorem deviceAfter_none : deviceAfter none s = s.devMem := by
  cases hs : s.fsm.state <;> simp [deviceAfter, hs]

end Transmit

/-! ### The statements about the shift layer -/

/-- Settles O31: the output registers follow the call alone and the input pipeline the lines alone; the rest is the
frame of a tick. That the protocol controller does not look at the call is the model's choice, log entry 12. -/
theorem phyRegistersAfterATick : Obligations.PhyRegistersAfterATick := by
  intro w m s hrst
  have hplain : sysTick s = runTickCalling (fsmNow s).call s := sysTick_eq s hrst
  have hrx : (sysTick s).phy.rxWord = pinsWord (linesNow s) := by rw [hplain]; rfl
  have hstrobe : (sysTick s).phy.rxStrobe = pinsStrobe (linesNow s) := by rw [hplain]; rfl
  refine ⟨_, _, _, exec_phyShiftout s w m, exec_phyIdle s, exec_phySamplein s, ?_⟩
  rw [sysTickCalling_run _ s hrst, sysTickCalling_run _ s hrst, hrx, hstrobe, hplain]
  refine ⟨runTickCalling_some_queuedWord s w m, runTickCalling_none_idleWord s, ?driven, ?word, ?strobe, rfl, rfl, rfl,
    restTicks_run _ s, restTicks_run _ s, restTicks_run _ s, deviceAfter_of_ne_wPrep _, deviceAfter_none s, rfl⟩
  case driven => exact fun hw => ⟨pinsWord_linesNow_of_driven hw, pinsStrobe_linesNow_of_driven hw⟩
  case word =>
    intro h
    rw [pinsWord_linesNow_of_released h, pinsWord_toNat]
  case strobe =>
    intro h
    rw [pinsStrobe_linesNow_of_released h, pinsStrobe_toNat]

/-- Settles O32: the call's tick queues the word, and the tick of the looped-back cycle samples what is queued. -/
theorem loopedBackWordReturns : Obligations.LoopedBackWordReturns := by
  intro w m s hrst
  refine ⟨_, _, exec_phyShiftout s w m, exec_phySamplein _, ?_⟩
  rw [sysTickCalling_run _ s hrst]
  obtain ⟨hword, hmask, -⟩ := runTickCalling_some_queuedWord s w m
  generalize ht : runTickCalling (some ⟨w, m⟩) s = t at hword hmask ⊢
  have hlow : (t.putPins (loopbackPins t.phy)).inp.rst = false := by subst ht; rfl
  rw [sysTick_eq _ hlow]
  obtain ⟨hrx, hstrobe⟩ : pinsWord (linesNow (t.putPins (loopbackPins t.phy))) = w ∧
      pinsStrobe (linesNow (t.putPins (loopbackPins t.phy))) = m := by
    rw [linesNow_of_loopback (s := t.putPins (loopbackPins t.phy)) rfl]
    exact ⟨(pinsWord_loopbackPins _).trans hword, (pinsStrobe_loopbackPins _).trans hmask⟩
  exact ⟨hrx, hstrobe⟩

end Sys2Proof.Machine

/-! SUPPORT. The delay tap: no register but the tap, and no output, depends on it, whatever the operation; and what the
control vector does to it (`40_phy_shift.md` R118, R119). -/

namespace Sys2Proof.Machine

/-! ### Nothing depends on the tap -/

section WithTap
variable (s : State) (tap : Nat)

/-- The FSM's rule looks at the PHY's samples and not at its tap. -/
theorem fsmNow_withTap : fsmNow (s.withTap tap) = fsmNow s := by
  change fsmRule s.params (adapterIn s) { s.phy with delayTap := tap } s.fsm =
    fsmRule s.params (adapterIn s) s.phy s.fsm
  cases hs : s.fsm.state <;> simp only [fsmRule, hs] <;> rfl

theorem runTickCalling_withTap (call : Option ShiftCall) :
    runTickCalling call (s.withTap tap) =
      (runTickCalling call s).withTap (adjustDelay s.params.delayTapMax s.inp.dly tap) := by
  have hfsm : fsmAfter (s.withTap tap) = fsmAfter s := by
    rw [fsmAfter, fsmNow_withTap]
    rfl
  cases call <;> simp only [runTickCalling, hfsm] <;> rfl

/-- A reset gives the tap its reset value. -/
theorem resetTick_withTap : resetTick (s.withTap tap) = resetTick s := rfl

theorem exists_sysTickCalling_withTap (call : Option ShiftCall) :
    ∃ tap', sysTickCalling call (s.withTap tap) = (sysTickCalling call s).withTap tap' := by
  cases hrst : s.inp.rst
  · rw [sysTickCalling_run call s hrst, sysTickCalling_run call (s.withTap tap) hrst]
    exact ⟨_, runTickCalling_withTap s tap call⟩
  · rw [sysTickCalling_reset call s hrst, sysTickCalling_reset call (s.withTap tap) hrst]
    exact ⟨Phy.reset.delayTap, resetTick_withTap s tap⟩

theorem exists_sysTick_withTap : ∃ tap', sysTick (s.withTap tap) = (sysTick s).withTap tap' := by
  rw [← sysTickCalling_fsmNow, ← sysTickCalling_fsmNow, fsmNow_withTap]
  exact exists_sysTickCalling_withTap s tap _

theorem domainTick_withTap (d : Domain) : domainTick d (s.withTap tap) = (domainTick d s).withTap tap := rfl

end WithTap

/-- From two states that differ in the tap alone, `f` answers two states that differ in the tap alone. -/
def TapIndependent (f : State → Host.Outcome State Fault Refusal) : Prop :=
  ∀ (s t : State) (tap : Nat), f s = .next t → ∃ tap', f (s.withTap tap) = .next (t.withTap tap')

section TapIndependent
variable {o : Host.Outcome State Fault Refusal} {u : State} (tap : Nat)

/-- The answer is one `sys` tick. -/
theorem exists_next_withTap_of_sysTickCalling {call : Option ShiftCall}
    (ho : o = .next (sysTickCalling call (u.withTap tap))) :
    ∃ tap', o = .next ((sysTickCalling call u).withTap tap') := by
  obtain ⟨tap', h⟩ := exists_sysTickCalling_withTap u tap call
  exact ⟨tap', by rw [ho, h]⟩

/-- The answer is one `sys` tick with the FSM's own call. -/
theorem exists_next_withTap_of_sysTick (ho : o = .next (sysTick (u.withTap tap))) :
    ∃ tap', o = .next ((sysTick u).withTap tap') := by
  obtain ⟨tap', h⟩ := exists_sysTick_withTap u tap
  exact ⟨tap', by rw [ho, h]⟩

/-- The answer is one tick of a foreign domain. -/
theorem exists_next_withTap_of_domainTick {d : Domain} (ho : o = .next (domainTick d (u.withTap tap))) :
    ∃ tap', o = .next ((domainTick d u).withTap tap') :=
  ⟨tap, by rw [ho, domainTick_withTap]⟩

theorem tapIndependent_sysTickCalling (call : Option ShiftCall) :
    TapIndependent fun s => .next (sysTickCalling call s) := by
  rintro s t tap ⟨⟩
  exact exists_next_withTap_of_sysTickCalling tap rfl

/-- An operation that is one `sys` tick, and puts on its port what does not look at the tap. -/
theorem tapIndependent_sysTick {put : State → State} (hput : ∀ s tap, put (s.withTap tap) = (put s).withTap tap) :
    TapIndependent fun s => .next (sysTick (put s)) := by
  rintro s t tap ⟨⟩
  exact exists_next_withTap_of_sysTick tap (by rw [← hput])

theorem tapIndependent_queueWriteStep (n : Nat) (rst valid : Bool) (data : Nat) :
    TapIndependent (queueWriteStep n rst valid data) := by
  intro s t tap h
  obtain ⟨q, hq, ⟨hside, rfl⟩ | ⟨hside, rfl⟩⟩ := queueWriteStep_cases h
  · exact exists_next_withTap_of_sysTick tap (by simp only [queueWriteStep, State.withTap, hq, hside]; rfl)
  · exact exists_next_withTap_of_domainTick tap (by simp only [queueWriteStep, State.withTap, hq, hside]; rfl)

theorem tapIndependent_queueReadStep (n : Nat) (rst ready : Bool) : TapIndependent (queueReadStep n rst ready) := by
  intro s t tap h
  obtain ⟨q, hq, ⟨hside, rfl⟩ | ⟨hside, rfl⟩⟩ := queueReadStep_cases h
  · exact exists_next_withTap_of_sysTick tap (by simp only [queueReadStep, State.withTap, hq, hside]; rfl)
  · exact exists_next_withTap_of_domainTick tap (by simp only [queueReadStep, State.withTap, hq, hside]; rfl)

theorem tapIndependent_crossingSourceStep (x : Nat) (pulse : Bool) : TapIndependent (crossingSourceStep x pulse) := by
  intro s t tap h
  obtain ⟨c, hc, ⟨hside, rfl⟩ | ⟨hside, rfl⟩⟩ := crossingSourceStep_cases h
  · exact exists_next_withTap_of_sysTick tap (by simp only [crossingSourceStep, State.withTap, hc, hside]; rfl)
  · exact exists_next_withTap_of_domainTick tap (by simp only [crossingSourceStep, State.withTap, hc, hside]; rfl)

theorem tapIndependent_crossingDestStep (x : Nat) : TapIndependent (crossingDestStep x) := by
  intro s t tap h
  obtain ⟨c, hc, ⟨hside, rfl⟩ | ⟨hside, rfl⟩⟩ := crossingDestStep_cases h
  · exact exists_next_withTap_of_sysTick tap (by simp only [crossingDestStep, State.withTap, hc, hside])
  · exact exists_next_withTap_of_domainTick tap (by simp only [crossingDestStep, State.withTap, hc, hside])

end TapIndependent

/-- Every operation is one tick, and what it puts on its port does not look at the tap. -/
theorem tapIndependent_exec (i : Instr) : TapIndependent (exec i) := by
  cases i
  case caRd | caWr | busNop | busRdClassic | busRdBurst | busRdEnd | busRdRsvd001 | busRdRsvd011 | busRdRsvd100
      | busRdRsvd101 | busRdRsvd110 | busWrClassic | busWrBurst | busWrEnd | busWrRsvd001 | busWrRsvd011
      | busWrRsvd100 | busWrRsvd101 | busWrRsvd110 | dlyLoad | dlyInc | dlyDec | dlyHold | fsmIdle | fsmCmd
      | fsmRwdsWait | fsmReadStart | fsmReadAck | fsmReadBurst | fsmLatencyWrite | fsmWPrep | fsmWriteBurst
      | fsmWriteFinish | fsmTimeout | fsmCleanup | phySamplein | sysReset =>
    exact tapIndependent_sysTick fun _ _ => rfl
  case csrWrStartAddress e _ | csrWrTransferSize e _ | csrWrBurstSize e _ | csrWrDone e _ | csrWrEnable e _
      | csrWrReset e _ | csrWrUndef e _ _ | csrRdStartAddress e | csrRdTransferSize e | csrRdBurstSize e
      | csrRdDone e | csrRdEnable e | csrRdReset e | csrRdUndef e _ | engIdle e | engActive e | strmXfer e _
      | strmUnderflow e _ | strmOverflow e _ | strmIdle e _ | dmaStartLocal e | dmaStartExt e =>
    exact tapIndependent_sysTick fun _ _ => by cases e <;> rfl
  case cdcwReset | cdcwPush | cdcwStall | cdcwIdle => exact tapIndependent_queueWriteStep _ _ _ _
  case cdcrReset | cdcrPop | cdcrWait | cdcrEmpty => exact tapIndependent_queueReadStep _ _ _
  case phyShiftout | phyIdle => exact tapIndependent_sysTickCalling _
  case pulseSend => exact tapIndependent_crossingSourceStep _ _
  case pulseSync => exact tapIndependent_crossingDestStep _

/-! ### What the control vector does -/

section Vector
variable (load move dir : Bool)

/-- `adjustDelay` in the vector's three bits: load wins over move, the tap saturates at both ends (`40_phy_shift.md`
R118). -/
theorem adjustDelay_vector (tapMax tap : Nat) :
    adjustDelay tapMax (BitVec.ofBool load ++ BitVec.ofBool move ++ BitVec.ofBool dir) tap =
      if load then 0 else if move then if dir then tap - 1 else min (tap + 1) tapMax else tap := by
  cases load <;> cases move <;> cases dir <;> rfl

theorem dlyMoves_vector :
    dlyMoves (BitVec.ofBool load ++ BitVec.ofBool move ++ BitVec.ofBool dir) = (load || move) := by
  cases load <;> cases move <;> cases dir <;> rfl

end Vector

/-! ### A cycle with a control vector -/

section PutDly
variable (s : State) (load move dir : Bool)

theorem exec_dlyLoad : exec (.dlyLoad move dir) s = .next (sysTick (s.putDly true move dir)) := rfl

theorem exec_dlyInc : exec .dlyInc s = .next (sysTick (s.putDly false true false)) := rfl

theorem exec_dlyDec : exec .dlyDec s = .next (sysTick (s.putDly false true true)) := rfl

theorem exec_dlyHold : exec (.dlyHold dir) s = .next (sysTick (s.putDly false false dir)) := rfl

/-- A window is disturbed in which the vector loads or moves the tap (`40_phy_shift.md` R119). -/
theorem windowDisturbed_putDly :
    windowDisturbed (s.putDly load move dir) = (s.fsm.cs && (s.tapMoved || (load || move))) := by
  rw [windowDisturbed, putDly_inp_dly, dlyMoves_vector]
  rfl

/-- The vector reaches the tap, the samples and the mark of a disturbed window, and nothing else. -/
theorem sysTick_putDly (hrst : s.inp.rst = false) :
    sysTick (s.putDly load move dir) =
      { sysTick s with
        phy := phyTick s.params (linesNow (s.putDly load move dir)) (s.putDly load move dir).inp.dly (fsmNow s).call
          s.phy
        tapMoved := windowDisturbed (s.putDly load move dir) } := by
  rw [sysTick_eq s hrst, sysTick_eq (s.putDly load move dir) (by simpa using hrst)]
  rfl

theorem sysTick_putDly_delayTap (hrst : s.inp.rst = false) :
    (sysTick (s.putDly load move dir)).phy.delayTap =
      if load then 0
      else if move then if dir then s.phy.delayTap - 1 else min (s.phy.delayTap + 1) s.params.delayTapMax
      else s.phy.delayTap := by
  rw [sysTick_putDly s load move dir hrst, putDly_inp_dly]
  exact adjustDelay_vector ..

end PutDly

/-! ### Two vectors in the same cycle -/

section Agree
variable {s : State} (hrst : s.inp.rst = false)
include hrst

/-- Outside a window the vector reaches the tap alone. -/
theorem agreeRegisters_putDly_outside_window (hcs : s.fsm.cs = false) (load move dir dir' : Bool) :
    AgreeRegisters
      { sysTick (s.putDly load move dir) with
        phy := { (sysTick (s.putDly load move dir)).phy with delayTap := s.phy.delayTap } }
      (sysTick (s.putDly false false dir')) := by
  have hquiet : ∀ l m d, windowDisturbed (s.putDly l m d) = false := fun l m d => by simp [windowDisturbed, hcs]
  have hlines : ∀ l m d, linesNow (s.putDly l m d) = linesSampled s.fsm s.phy s.inp.pins := fun l m d => by
    simp [linesNow, hquiet]
  have htap : (sysTick (s.putDly false false dir')).phy.delayTap = s.phy.delayTap :=
    sysTick_putDly_delayTap s false false dir' hrst
  rw [← htap]
  simp only [sysTick_putDly s _ _ _ hrst, hquiet, hlines]
  exact ⟨rfl, rfl, rfl, rfl, rfl, rfl, rfl, rfl, rfl, rfl, rfl⟩

/-- In a window the vector reaches the tap, the samples and the mark of a disturbed window, and nothing else. -/
theorem agreeRegisters_putDly_but_samples (load move dir dir' : Bool) :
    AgreeRegisters
      { sysTick (s.putDly load move dir) with
        phy := { (sysTick (s.putDly false false dir')).phy with
          txWord := (sysTick (s.putDly load move dir)).phy.txWord
          txMask := (sysTick (s.putDly load move dir)).phy.txMask
          txValid := (sysTick (s.putDly load move dir)).phy.txValid }
        tapMoved := (sysTick (s.putDly false false dir')).tapMoved }
      (sysTick (s.putDly false false dir')) := by
  simp only [sysTick_putDly s _ _ _ hrst]
  cases hcall : (fsmNow s).call <;> exact ⟨rfl, rfl, rfl, rfl, rfl, rfl, rfl, rfl, rfl, rfl, rfl⟩

theorem tapMoved_putDly_in_window (hcs : s.fsm.cs = true) {load move : Bool} (hmoves : (load || move) = true)
    (dir : Bool) : (sysTick (s.putDly load move dir)).tapMoved = true := by
  rw [sysTick_putDly s load move dir hrst]
  simp [windowDisturbed_putDly, hcs, hmoves]

/-- Holding the tap is what the lines at rest do. -/
theorem agreeRegisters_putDly_hold (hdly : s.inp.dly = 0) (dir : Bool) :
    AgreeRegisters (sysTick (s.putDly false false dir)) (sysTick s) := by
  have hmark : windowDisturbed (s.putDly false false dir) = windowDisturbed s := by
    rw [windowDisturbed_putDly, windowDisturbed, hdly]
    rfl
  have hlines : linesNow (s.putDly false false dir) = linesNow s := by
    rw [linesNow, linesNow, hmark]
    rfl
  have hphy : phyTick s.params (linesNow s) (s.putDly false false dir).inp.dly (fsmNow s).call s.phy =
      phyTick s.params (linesNow s) s.inp.dly (fsmNow s).call s.phy := by
    rw [phyTick, phyTick, putDly_inp_dly, adjustDelay_vector, hdly]
    rfl
  rw [sysTick_putDly s false false dir hrst, hmark, hlines, hphy, sysTick_eq s hrst]
  exact ⟨rfl, rfl, rfl, rfl, rfl, rfl, rfl, rfl, rfl, rfl, rfl⟩

end Agree

/-- Settles O34: the control vector reaches the tap and, in a window, the samples, which are unspecified from the cycle
of the move on (the model's choice, log entry 18); and every operation is a tick, which does not look at the tap. -/
theorem delayTapMoves : Obligations.DelayTapMoves := by
  constructor
  · intro s move dir hrst
    have hmoves : ∀ y ∈ [sysTick (s.putDly true move dir), sysTick (s.putDly false true false),
        sysTick (s.putDly false true true)],
        ∃ l m d, (l || m) = true ∧ y = sysTick (s.putDly l m d) := by
      simp only [List.forall_mem_cons]
      exact ⟨⟨true, move, dir, rfl, rfl⟩, ⟨false, true, false, rfl, rfl⟩, ⟨false, true, true, rfl, rfl⟩, by simp⟩
    refine ⟨_, _, _, _, exec_dlyLoad s move dir, exec_dlyInc s, exec_dlyDec s, exec_dlyHold s dir,
      sysTick_putDly_delayTap s true move dir hrst, sysTick_putDly_delayTap s false true false hrst,
      sysTick_putDly_delayTap s false true true hrst, sysTick_putDly_delayTap s false false dir hrst,
      fun hcs y hy => ?outside, fun hcs y hy => ?inside, fun hdly => agreeRegisters_putDly_hold hrst hdly dir⟩
    case outside =>
      obtain ⟨l, m, d, -, rfl⟩ := hmoves y hy
      exact agreeRegisters_putDly_outside_window hrst hcs l m d dir
    case inside =>
      obtain ⟨l, m, d, hlm, rfl⟩ := hmoves y hy
      exact ⟨tapMoved_putDly_in_window hrst hcs hlm d, agreeRegisters_putDly_but_samples hrst l m d dir⟩
  · intro i s t tap h
    obtain ⟨tap', hu⟩ := tapIndependent_exec i s t tap h
    exact ⟨_, hu, rfl⟩

end Sys2Proof.Machine

/-! SUPPORT. The command encoder: a command word as the sum of its fields, the operation it is on the `CA` port, and the
one rule that stores a command word (`41_command_encoder.md` R130 to R133). -/

namespace Sys2Proof.Machine

/-! ### The fields of a command word (`30_encoding.md` R81, R82) -/

/-- The encoder puts a request into the fields of format `CA` (`41_command_encoder.md` R130). -/
theorem encodeCommand_eq_encodeCa (adr : BitVec 32) (we : Bool) :
    encodeCommand adr we = encodeCa (!we) (adr.extractLsb' 2 19) (adr.extractLsb' 0 2) := rfl

section Fields
variable (read : Bool) (row : BitVec 19) (col : BitVec 2)

theorem encodeCa_toNat :
    (encodeCa read row col).toNat = read.toNat * 2 ^ 47 + 2 ^ 45 + row.toNat * 2 ^ 16 + col.toNat * 2 := by
  have hburst : (0b01#2).toNat = 1 := rfl
  simp only [encodeCa, toNat_append_eq_add, BitVec.toNat_ofBool, hburst, BitVec.toNat_zero]
  omega

theorem encodeCa_row : (encodeCa read row col).extractLsb' 16 19 = row :=
  calc (encodeCa read row col).extractLsb' 16 19
      = (BitVec.ofBool read ++ 0b01#2 ++ 0#10 ++ row ++ 0#13 ++ col).extractLsb' 15 19 :=
        BitVec.extractLsb'_append_eq_of_le (by decide)
    _ = (BitVec.ofBool read ++ 0b01#2 ++ 0#10 ++ row ++ 0#13).extractLsb' 13 19 :=
        BitVec.extractLsb'_append_eq_of_le (by decide)
    _ = (BitVec.ofBool read ++ 0b01#2 ++ 0#10 ++ row).extractLsb' 0 19 :=
        BitVec.extractLsb'_append_eq_of_le (by decide)
    _ = row := BitVec.extractLsb'_append_eq_right

theorem encodeCa_col : (encodeCa read row col).extractLsb' 1 2 = col :=
  calc (encodeCa read row col).extractLsb' 1 2
      = (BitVec.ofBool read ++ 0b01#2 ++ 0#10 ++ row ++ 0#13 ++ col).extractLsb' 0 2 :=
        BitVec.extractLsb'_append_eq_of_le (by decide)
    _ = col := BitVec.extractLsb'_append_eq_right

end Fields

/-- The request whose address is `row ∥ col` has the command word with these fields (`41_command_encoder.md` R131,
R132). -/
theorem encodeCommand_rowCol (we : Bool) (row : BitVec 19) (col : BitVec 2) :
    encodeCommand ((row ++ col).setWidth 32) we = encodeCa (!we) row col := by
  have hrow : ((row ++ col).setWidth 32).extractLsb' 2 19 = row :=
    (BitVec.extractLsb'_setWidth_of_le (by decide)).trans BitVec.extractLsb'_append_eq_left
  have hcol : ((row ++ col).setWidth 32).extractLsb' 0 2 = col :=
    (BitVec.extractLsb'_setWidth_of_le (by decide)).trans BitVec.extractLsb'_append_eq_right
  rw [encodeCommand_eq_encodeCa, hrow, hcol]

/-- Address bits above 20 are dropped (`20_memory.md` R51, `41_command_encoder.md` R130). -/
theorem encodeCommand_and_mask (adr : BitVec 32) (we : Bool) :
    encodeCommand (adr &&& 0x1FFFFF) we = encodeCommand adr we := by
  have hrow : (0x1FFFFF : BitVec 32).extractLsb' 2 19 = BitVec.allOnes 19 := rfl
  have hcol : (0x1FFFFF : BitVec 32).extractLsb' 0 2 = BitVec.allOnes 2 := rfl
  simp only [encodeCommand, BitVec.extractLsb'_and, hrow, hcol, BitVec.and_allOnes]

/-- A word with its reserved bits right is an operation, and bit 47 says which (`30_encoding.md` R81, R83). -/
theorem decode_ca_of_reservedBitsOk {v : CommandWord} (h : reservedBitsOk v) :
    decode ⟨.ca, v.toNat, .none⟩ =
      .ok (if isReadCommand v then .caRd (v.extractLsb' 16 19) (v.extractLsb' 1 2)
        else .caWr (v.extractLsb' 16 19) (v.extractLsb' 1 2)) := by
  rw [decode_ca, and_decodeMask, h, isReadCommand]
  cases v.getLsbD 47 <;> rfl

/-- Settles O5: the sum, the half-word address, the mask and the operation, each from its lemma about the fields. -/
theorem commandWordOfARequest : Obligations.CommandWordOfARequest := by
  intro adr we
  refine ⟨?sum, commandHalfword_encodeCommand adr we, (encodeCommand_and_mask adr we).symm,
    reservedBitsOk_encodeCommand adr we, ?operation⟩
  case sum => rw [encodeCommand_eq_encodeCa, encodeCa_toNat]
  case operation =>
    rw [decode_ca_of_reservedBitsOk (reservedBitsOk_encodeCommand adr we), isReadCommand_encodeCommand,
      encodeCommand_eq_encodeCa, encodeCa_row, encodeCa_col]
    cases we <;> rfl

/-! ### Where a command word is stored -/

section Rules
variable {p : Params} {b : BusIn} {x : Phy} {f : Fsm}

/-- A rule that stores a new command word takes a request from `IDLE` to `CMD` (`42_protocol_fsm.md` R143). -/
theorem fsmRule_idle_to_cmd_of_ca_ne (h : (fsmRule p b x f).fsm.ca ≠ f.ca) :
    f.state = .idle ∧ (fsmRule p b x f).fsm.state = .cmd := by
  have hs : f.state = .idle := not_not.mp fun hne => h (fsmRule_ca hne)
  refine ⟨hs, ?_⟩
  rw [fsmRule_idle hs] at h ⊢
  unfold ruleIdle at h ⊢
  split
  next => rfl
  next hreq => simp [hreq] at h

end Rules

/-- What an operation other than the system reset leaves of the protocol controller: in a `sys` tick its rule's values
with the operation on its port, in a foreign tick the registers as they are. -/
theorem exec_fsm_cases {i : Instr} {s t : State} (h : exec i s = .next t) (hsel : selects i s = true)
    (hrst : s.inp.rst = false) (hne : i ≠ .sysReset) :
    (∃ u, u.fsm = s.fsm ∧ t.fsm = fsmAfter u) ∨ t.fsm = s.fsm := by
  obtain ⟨u, hu, ⟨call, rfl⟩ | ⟨d, rfl⟩⟩ := exec_cases h
  · refine .inl ⟨u, hu.fsm_eq hsel, ?_⟩
    rw [sysTickCalling_run call u ((hu.rst hne).trans hrst), runTickCalling_fsm]
  · exact .inr (hu.fsm_eq hsel)

/-- Settles O18: an operation runs the FSM's rule or leaves its registers, and of the rules `IDLE`'s alone writes the
command word, when it goes to `CMD`. -/
theorem commandWordIsImmutable : Obligations.CommandWordIsImmutable := by
  intro i s t h hsel hrst hne
  obtain ⟨u, hu, ht⟩ | ht := exec_fsm_cases h hsel hrst hne
  · rw [ht, ← hu, fsmAfter, everyTick_ca, everyTick_state]
    exact ⟨fsmRule_ca, fsmRule_idle_to_cmd_of_ca_ne⟩
  · rw [ht]
    exact ⟨fun _ => rfl, fun hca => absurd rfl hca⟩

/-! ### A request taken in `IDLE` -/

/-- The external master's lines reach the protocol controller, the output registers and the storage; the other
components see of it that it is granted (`00_scope.md` R6, `20_memory.md` R68). -/
theorem restTicks_putBus (call : Option ShiftCall) (s : State) (b : BusIn) :
    RestTicks s.withExternal (runTickCalling call (s.putBus b)) :=
  ⟨rfl, rfl, rfl, rfl, rfl, rfl, rfl, rfl, rfl, rfl⟩

/-- The first cycle of a window: the request's command word is stored and its first half sent (`42_protocol_fsm.md`
R143). -/
theorem sysTick_opens_window {s : State} (hrst : s.inp.rst = false) (hs : s.fsm.state = .idle)
    (hreq : busRequest (adapterIn s) = true) :
    (sysTick s).devMem = s.devMem ∧
      (sysTick s).fsm = Ticked s { s.fsm with
        state := .cmd, cs := true, clkEn := true, dqOe := true, phaseCnt := 0, burstCnt := 0, contHint := false,
        ca := encodeCommand (adapterIn s).adr (adapterIn s).we } ∧
      QueuedWord (sysTick s).phy (commandHigh (encodeCommand (adapterIn s).adr (adapterIn s).we)) 0 := by
  have hrule : fsmNow s = ruleIdle (adapterIn s) s.fsm := fsmRule_idle hs
  rw [sysTick_eq s hrst, runTickCalling_devMem, runTickCalling_fsm, fsmAfter, hrule, ruleIdle, if_pos hreq]
  exact ⟨deviceAfter_of_ne_wPrep _ (by simp [hs]), rfl, runTickCalling_some_queuedWord s _ 0⟩

theorem sysTick_ca_of_ne_idle {s : State} (hrst : s.inp.rst = false) (hs : s.fsm.state ≠ .idle) :
    (sysTick s).fsm.ca = s.fsm.ca := by
  rw [sysTick_eq s hrst, runTickCalling_fsm, fsmAfter, everyTick_ca]
  exact fsmRule_ca hs

/-! ### The command words as operations -/

section PutCommand
variable (we : Bool) (row : BitVec 19) (col : BitVec 2) {s : State}

theorem exec_caRd : exec (.caRd row col) s = .next (sysTick (s.putCommand false row col)) := rfl

theorem exec_caWr : exec (.caWr row col) s = .next (sysTick (s.putCommand true row col)) := rfl

variable (hrst : s.inp.rst = false)
include hrst

theorem restTicks_putCommand : RestTicks s.withExternal (sysTick (s.putCommand we row col)) := by
  rw [sysTick_eq (s.putCommand we row col) hrst]
  exact restTicks_putBus _ s _

/-- Where the FSM takes a request the command word of the operation is stored and its first half sent
(`41_command_encoder.md` R131, R132). -/
theorem sysTick_putCommand_of_idle (hs : s.fsm.state = .idle) :
    (sysTick (s.putCommand we row col)).devMem = s.devMem ∧
      (sysTick (s.putCommand we row col)).fsm = Ticked s { s.fsm with
        state := .cmd, cs := true, clkEn := true, dqOe := true, phaseCnt := 0, burstCnt := 0, contHint := false,
        ca := encodeCa (!we) row col } ∧
      QueuedWord (sysTick (s.putCommand we row col)).phy ((encodeCa (!we) row col).extractLsb' 16 32) 0 := by
  rw [← encodeCommand_rowCol we row col]
  exact sysTick_opens_window (s := s.putCommand we row col) hrst hs rfl

/-- Anywhere else the stored word stays (`41_command_encoder.md` R133). -/
theorem sysTick_putCommand_ca_of_ne_idle (hs : s.fsm.state ≠ .idle) :
    (sysTick (s.putCommand we row col)).fsm.ca = s.fsm.ca :=
  sysTick_ca_of_ne_idle (s := s.putCommand we row col) hrst hs

end PutCommand

/-- Settles O23: a command word is the request at its row and column, which `IDLE` takes and no other state looks at.
That such an operation is a request is the model's choice, log entry 13. -/
theorem commandWordIsStoredAndSent : Obligations.CommandWordIsStoredAndSent := by
  intro row col s hrst
  refine ⟨_, _, exec_caRd row col, exec_caWr row col, restTicks_putCommand false row col hrst,
    restTicks_putCommand true row col hrst, fun hs => ?_, fun hs => ?_⟩
  · obtain ⟨hmem, hfsm, hphy⟩ := sysTick_putCommand_of_idle false row col hrst hs
    obtain ⟨hmem', hfsm', hphy'⟩ := sysTick_putCommand_of_idle true row col hrst hs
    exact ⟨hmem, hmem', hfsm, hphy, hfsm', hphy'⟩
  · exact ⟨sysTick_putCommand_ca_of_ne_idle false row col hrst hs, sysTick_putCommand_ca_of_ne_idle true row col hrst hs⟩

end Sys2Proof.Machine

/-! SUPPORT. Every step keeps the machine's invariant, component by component. The protocol controller's part is
`fsmInv_fsmAfter` and the engines' `engTick_inv`; here are the queues, the crossings, the PHY, the storage and the build
(`10_state.md` R13, R14, R27 to R29, `40_phy_shift.md` R113 to R118). -/

namespace Sys2Proof.Machine

/-! ### The queues' pointers and entries -/

section Queue
variable {q : Queue}

theorem queueInv_powerOn (cfg : QueueCfg) : QueueInv (Queue.powerOn cfg) where
  wptr := pointerModulus_pos _
  rptr := pointerModulus_pos _
  rptrW1 := pointerModulus_pos _
  rptrW2 := pointerModulus_pos _
  wptrR1 := pointerModulus_pos _
  wptrR2 := pointerModulus_pos _
  form := rfl
  entries _ hc := absurd hc List.not_mem_nil

/-- A running write side finds the queue as it stands, or scrambled. -/
theorem queueInv_releaseWrite (h : QueueInv q) : QueueInv (releaseWrite q) := by
  unfold releaseWrite
  split
  · exact ⟨h.wptr, h.rptr, h.rptrW1, h.rptrW2, h.wptrR1, h.wptrR2, h.form, h.entries⟩
  · exact queueInv_scramble _

/-- A running read side finds the queue as it stands, or scrambled. -/
theorem queueInv_releaseRead (h : QueueInv q) : QueueInv (releaseRead q) := by
  unfold releaseRead
  split
  · exact ⟨h.wptr, h.rptr, h.rptrW1, h.rptrW2, h.wptrR1, h.wptrR2, h.form, h.entries⟩
  · exact queueInv_scramble _

/-- A pointer that moves on, or not, stays in its range (`10_state.md` R28). -/
theorem movedPointer_lt (moves : Bool) {ptr : Nat} (h : ptr < pointerModulus q) :
    (if moves then (ptr + 1) % pointerModulus q else ptr) < pointerModulus q := by
  split
  · exact Nat.mod_lt _ (pointerModulus_pos q)
  · exact h

theorem queueInv_writeResetTick (h : QueueInv q) : QueueInv (writeResetTick q) where
  wptr := pointerModulus_pos _
  rptr := h.rptr
  rptrW1 := h.rptr
  rptrW2 := h.rptrW1
  wptrR1 := h.wptrR1
  wptrR2 := h.wptrR2
  form := h.form
  entries := h.entries

/-- A push writes an entry below the depth with a payload of the queue's width (`46_cdc_queue.md` R265). -/
theorem queueInv_writeRunTick (valid : Bool) (data : Nat) (h : QueueInv q) :
    QueueInv (writeRunTick valid data q) where
  wptr := movedPointer_lt (pushes valid q) h.wptr
  rptr := h.rptr
  rptrW1 := h.rptr
  rptrW2 := h.rptrW1
  wptrR1 := h.wptrR1
  wptrR2 := h.wptrR2
  form := by
    dsimp only [writeRunTick]
    split
    · exact cellsWf_cellWrite _ _ _ h.form
    · exact h.form
  entries c hc := by
    dsimp only [writeRunTick] at hc
    split at hc
    · obtain rfl | hold := mem_cellWrite _ _ _ c hc
      · exact ⟨Nat.mod_lt _ (queueDepth_pos q), Nat.mod_lt _ (Nat.two_pow_pos _)⟩
      · exact h.entries c hold
    · exact h.entries c hc

theorem queueInv_readResetTick (h : QueueInv q) : QueueInv (readResetTick q) where
  wptr := h.wptr
  rptr := pointerModulus_pos _
  rptrW1 := h.rptrW1
  rptrW2 := h.rptrW2
  wptrR1 := h.wptr
  wptrR2 := h.wptrR1
  form := h.form
  entries := h.entries

theorem queueInv_readRunTick (ready : Bool) (h : QueueInv q) : QueueInv (readRunTick ready q) where
  wptr := h.wptr
  rptr := movedPointer_lt (pops ready q) h.rptr
  rptrW1 := h.rptrW1
  rptrW2 := h.rptrW2
  wptrR1 := h.wptr
  wptrR2 := h.wptrR1
  form := h.form
  entries := h.entries

theorem queueInv_writeTick (rst valid : Bool) (data : Nat) (h : QueueInv q) :
    QueueInv (queueWriteTick rst valid data q) := by
  unfold queueWriteTick
  split
  · exact queueInv_writeResetTick h
  · exact queueInv_writeRunTick valid data (queueInv_releaseWrite h)

theorem queueInv_readTick (rst ready : Bool) (h : QueueInv q) : QueueInv (queueReadTick rst ready q) := by
  unfold queueReadTick
  split
  · exact queueInv_readResetTick h
  · exact queueInv_readRunTick ready (queueInv_releaseRead h)

theorem queueInv_sysTick (s : State) (n : Nat) (h : QueueInv q) : QueueInv (queueSysTick s n q) := by
  unfold queueSysTick
  split
  · exact queueInv_writeTick _ _ _ h
  · exact queueInv_readTick _ _ h

theorem queueInv_farTick (s : State) (n : Nat) (h : QueueInv q) : QueueInv (queueFarTick s n q) := by
  unfold queueFarTick
  split
  · exact queueInv_writeTick _ _ _ h
  · exact queueInv_readTick _ _ h

end Queue

/-! ### The crossings' stretchers -/

section Crossing
variable {s : State} {c : Crossing} (h : CrossingInv s.params c)
include h

theorem crossingInv_sysTick (n : Nat) : CrossingInv s.params (crossingSysTick s n c) := by
  unfold crossingSysTick
  split
  · exact crossingInv_sourceTick _ _ _ _ h
  · exact crossingInv_destTick _ _ _ h

theorem crossingInv_farTick (n : Nat) : CrossingInv s.params (crossingFarTick s n c) := by
  unfold crossingFarTick
  split
  · exact crossingInv_sourceTick _ _ _ _ h
  · exact crossingInv_destTick _ _ _ h

end Crossing

/-! ### The PHY's registers -/

/-- The tap stays in its range, whatever the control vector (`40_phy_shift.md` R118). -/
theorem adjustDelay_le {tapMax tap : Nat} (dly : BitVec 3) (h : tap ≤ tapMax) :
    adjustDelay tapMax dly tap ≤ tapMax := by
  unfold adjustDelay
  repeat' split
  all_goals omega

/-- The half-cycle register is the upper half of the sampled word and of the strobe samples (`40_phy_shift.md` R115). -/
theorem pinsHalf0_eq (p : Pins) :
    pinsHalf0 p = (pinsWord p).extractLsb' 16 16 ++ (pinsStrobe p).extractLsb' 2 2 := by
  have hword : (pinsWord p).extractLsb' 16 16 = p.d0 ++ p.d1 :=
    calc (pinsWord p).extractLsb' 16 16
        = (p.d0 ++ p.d1 ++ p.d2).extractLsb' 8 16 := BitVec.extractLsb'_append_eq_of_le (by decide)
      _ = (p.d0 ++ p.d1).extractLsb' 0 16 := BitVec.extractLsb'_append_eq_of_le (by decide)
      _ = p.d0 ++ p.d1 := BitVec.extractLsb'_eq_self
  have hstrobe : (pinsStrobe p).extractLsb' 2 2 = BitVec.ofBool p.s0 ++ BitVec.ofBool p.s1 :=
    calc (pinsStrobe p).extractLsb' 2 2
        = (BitVec.ofBool p.s0 ++ BitVec.ofBool p.s1 ++ BitVec.ofBool p.s2).extractLsb' 1 2 :=
          BitVec.extractLsb'_append_eq_of_le (by decide)
      _ = (BitVec.ofBool p.s0 ++ BitVec.ofBool p.s1).extractLsb' 0 2 :=
          BitVec.extractLsb'_append_eq_of_le (by decide)
      _ = _ := BitVec.extractLsb'_eq_self
  rw [hword, hstrobe]
  apply BitVec.eq_of_toNat_eq
  simp only [pinsHalf0, toNat_append_eq_add]
  omega

theorem phyInv_reset (p : Params) : PhyInv p Phy.reset where
  tap := Nat.zero_le _
  idleWord _ := ⟨rfl, rfl⟩
  half := rfl

theorem phyInv_phyTick {p : Params} {x : Phy} (pins : Pins) (dly : BitVec 3) (call : Option ShiftCall)
    (h : PhyInv p x) : PhyInv p (phyTick p pins dly call x) where
  tap := adjustDelay_le dly h.tap
  idleWord hvalid := by
    cases call with
    | none => exact ⟨rfl, rfl⟩
    | some c => cases hvalid
  half := pinsHalf0_eq pins

/-! ### The protocol controller and an engine at reset, the storage at a tick -/

theorem fsmInv_reset (p : Params) : FsmInv p Fsm.reset where
  pins := rfl
  phase := Nat.zero_le _
  burst := Nat.zero_le _
  hint _ := rfl
  command hne := absurd rfl hne
  path _ hpath := by cases hpath

theorem engineInv_reset : EngineInv Engine.reset := fun hactive => by cases hactive

theorem engineInv_engineAfter {s : State} {e : EngineId} (h : EngineInv (s.engine e)) : EngineInv (engineAfter s e) :=
  engTick_inv _ _ _ _ _ h

theorem memoryInv_deviceAfter {s : State} (call : Option ShiftCall) (h : MemoryInv s.devMem) :
    MemoryInv (deviceAfter call s) := by
  by_cases hs : s.fsm.state = .wPrep
  · cases call with
    | none => rwa [deviceAfter_none]
    | some c =>
      rw [deviceAfter_wPrep c hs]
      exact memoryInv_deviceWrite _ _ _ _ h
  · rwa [deviceAfter_of_ne_wPrep call hs]

/-! ### The whole machine -/

section Machine
variable {s t : State}

/-- The invariant speaks of the registers, the storage and the build alone. -/
theorem State.Inv.congr (h : s.Inv) (hparams : t.params = s.params) (hfsm : t.fsm = s.fsm) (hphy : t.phy = s.phy)
    (hwriter : t.writer = s.writer) (hreader : t.reader = s.reader) (hqueues : t.queues = s.queues)
    (hcrossings : t.crossings = s.crossings) (hmem : t.devMem = s.devMem) : t.Inv where
  build := by rw [State.legalBuild, hparams, hqueues]; exact h.build
  fsm := by rw [hparams, hfsm]; exact h.fsm
  phy := by rw [hparams, hphy]; exact h.phy
  writer := hwriter ▸ h.writer
  reader := hreader ▸ h.reader
  queues := hqueues ▸ h.queues
  crossings := by rw [hparams, hcrossings]; exact h.crossings
  devMem := hmem ▸ h.devMem

theorem State.Inv.nextCycle (h : s.Inv) : (nextCycle s).Inv :=
  h.congr (by simp) (by simp) (by simp) (by simp) (by simp) (by simp) (by simp) (by simp)

/-- An operation that can take place is put on its port without touching a register. -/
theorem State.Inv.onPort {i : Instr} (h : s.Inv) (hu : OnPort i s t) (hsel : selects i s = true) : t.Inv :=
  h.congr hu.params (hu.fsm_eq hsel) hu.phy (hu.engine_eq hsel .writer) (hu.engine_eq hsel .reader) hu.queues
    hu.crossings hu.devMem

theorem params_legal_of_inv (h : s.Inv) : Params.legal s.params = true :=
  (Bool.and_eq_true_iff.mp h.build).1

/-- The build is the parameters and the queues' configurations, which no tick changes. -/
theorem legalBuild_of_same_cfg (h : s.legalBuild = true) (hparams : t.params = s.params)
    (hqueues : ∀ q ∈ t.queues, ∃ r ∈ s.queues, q.cfg = r.cfg) : t.legalBuild = true := by
  obtain ⟨hp, hcfg⟩ := Bool.and_eq_true_iff.mp h
  rw [List.all_eq_true] at hcfg
  rw [State.legalBuild, hparams, hp, Bool.true_and, List.all_eq_true]
  intro q hq
  obtain ⟨r, hr, hsame⟩ := hqueues q hq
  rw [hsame]
  exact hcfg r hr

/-- After a tick the queues and crossings are in range, whether they are ticked in `sys` or in a foreign domain: what is
left to show is the rest of the registers. -/
theorem State.Inv.of_ticked_sides (h : s.Inv) (hparams : t.params = s.params)
    (hqueues : ∀ q ∈ t.queues, ∃ n, ∃ r ∈ s.queues, q = queueSysTick s n r ∨ q = queueFarTick s n r ∨ q = r)
    (hcrossings : ∀ c ∈ t.crossings,
      ∃ n, ∃ d ∈ s.crossings, c = crossingSysTick s n d ∨ c = crossingFarTick s n d ∨ c = d)
    (hfsm : FsmInv s.params t.fsm) (hphy : PhyInv s.params t.phy) (hwriter : EngineInv t.writer)
    (hreader : EngineInv t.reader) (hmem : MemoryInv t.devMem) : t.Inv where
  build := by
    refine legalBuild_of_same_cfg h.build hparams fun q hq => ?_
    obtain ⟨n, r, hr, rfl | rfl | rfl⟩ := hqueues q hq
    · exact ⟨r, hr, queueSysTick_cfg s n r⟩
    · exact ⟨r, hr, queueFarTick_cfg s n r⟩
    · exact ⟨q, hr, rfl⟩
  fsm := hparams ▸ hfsm
  phy := hparams ▸ hphy
  writer := hwriter
  reader := hreader
  queues q hq := by
    obtain ⟨n, r, hr, rfl | rfl | rfl⟩ := hqueues q hq
    · exact queueInv_sysTick s n (h.queues r hr)
    · exact queueInv_farTick s n (h.queues r hr)
    · exact h.queues q hr
  crossings c hc := by
    rw [hparams]
    obtain ⟨n, d, hd, rfl | rfl | rfl⟩ := hcrossings c hc
    · exact crossingInv_sysTick (h.crossings d hd) n
    · exact crossingInv_farTick (h.crossings d hd) n
    · exact h.crossings c hd
  devMem := hmem

theorem State.Inv.sysTickCalling (call : Option ShiftCall) (h : s.Inv) : (sysTickCalling call s).Inv := by
  have hqueues : ∀ q ∈ queuesSysTick s 0 s.queues,
      ∃ n, ∃ r ∈ s.queues, q = queueSysTick s n r ∨ q = queueFarTick s n r ∨ q = r := fun q hq =>
    let ⟨n, r, hr, hq⟩ := mem_queuesSysTick s 0 s.queues q hq
    ⟨n, r, hr, .inl hq⟩
  have hcrossings : ∀ c ∈ crossingsSysTick s 0 s.crossings,
      ∃ n, ∃ d ∈ s.crossings, c = crossingSysTick s n d ∨ c = crossingFarTick s n d ∨ c = d := fun c hc =>
    let ⟨n, d, hd, hc⟩ := mem_crossingsSysTick s 0 s.crossings c hc
    ⟨n, d, hd, .inl hc⟩
  cases hrst : s.inp.rst
  · rw [sysTickCalling_run call s hrst]
    exact h.of_ticked_sides rfl hqueues hcrossings (fsmInv_fsmAfter (params_legal_of_inv h) h.fsm)
      (phyInv_phyTick _ _ _ h.phy) (engineInv_engineAfter (e := .writer) h.writer)
      (engineInv_engineAfter (e := .reader) h.reader) (memoryInv_deviceAfter call h.devMem)
  · rw [sysTickCalling_reset call s hrst]
    exact h.of_ticked_sides rfl hqueues hcrossings (fsmInv_reset _) (phyInv_reset _) engineInv_reset engineInv_reset
      h.devMem

theorem State.Inv.domainTick (d : Domain) (h : s.Inv) : (domainTick d s).Inv := by
  refine h.of_ticked_sides rfl (fun q hq => ?_) (fun c hc => ?_) h.fsm h.phy h.writer h.reader h.devMem
  · obtain ⟨n, r, hr, hq⟩ := mem_queuesFarTick d s 0 s.queues q hq
    exact ⟨n, r, hr, .inr hq⟩
  · obtain ⟨n, r, hr, hc⟩ := mem_crossingsFarTick d s 0 s.crossings c hc
    exact ⟨n, r, hr, .inr hc⟩

end Machine

/-- Settles O58: a step that answers is one tick of `sys` or of a foreign domain, with an operation on its port that
touches no register; each kind of tick keeps the invariant of every component. -/
theorem everyStepKeepsTheInvariant : Obligations.EveryStepKeepsTheInvariant := by
  intro s t hinv hstep
  obtain ⟨-, i, -, hsel, hexec⟩ := step_cases hstep
  obtain ⟨u, hu, ⟨call, rfl⟩ | ⟨d, rfl⟩⟩ := exec_cases hexec
  · exact (hinv.nextCycle.onPort hu hsel).sysTickCalling call
  · exact (hinv.nextCycle.onPort hu hsel).domainTick d

/-- Settles O59: the registers of the reset table and the platform of `State.reset`, component by component. -/
theorem resetHasTheInvariant : Obligations.ResetHasTheInvariant where
  build := rfl
  fsm := fsmInv_reset _
  phy := phyInv_reset _
  writer := engineInv_reset
  reader := engineInv_reset
  queues := List.forall_mem_cons.mpr ⟨queueInv_powerOn _,
    List.forall_mem_cons.mpr ⟨queueInv_powerOn _, List.forall_mem_nil _⟩⟩
  crossings := List.forall_mem_cons.mpr ⟨Nat.zero_le _, List.forall_mem_cons.mpr ⟨Nat.zero_le _, List.forall_mem_nil _⟩⟩
  devMem := memoryInv_reset

end Sys2Proof.Machine

/-! SUPPORT. The protocol FSM state by state: the tick in which the state register selects a rule, and what each rule
leaves, in the words of its statement (`42_protocol_fsm.md` R142 to R160). -/

namespace Sys2Proof.Machine

/-! ### The supervisor's comparisons, as conditions on the counters -/

section Comparisons
variable {f : Fsm}

theorem mayContinue_iff : mayContinue f = true ↔ f.contHint = true ∧ f.burstCnt.toNat < 512 := by
  rw [mayContinue, Bool.and_eq_true, belowBurstMax, decide_eq_true_iff]
  rfl

theorem phaseAtBound_iff : phaseAtBound f = true ↔ f.phaseCnt.toNat = 127 := by
  simp [phaseAtBound, Config.timeoutCycles]

theorem commandDone_iff : commandDone f = true ↔ f.phaseCnt.toNat = 3 := by
  simp [commandDone, Config.cmdCycles]

theorem latencyDone_iff {p : Params} : latencyDone p f = true ↔ f.phaseCnt.toNat + 1 = p.writeLatency :=
  beq_iff_eq

theorem qual_iff {x : Phy} : qual f x = true ↔ f.strobeLast = false ∧ x.rxStrobe.getLsbD 3 = true := by
  simp [qual]

/-- A wait that has not seen the strobe: one more cycle, or the timeout in the 128th (`43_burst_timeout_supervisor.md`
R183). -/
theorem waitForStrobe_eq :
    waitForStrobe f = if f.phaseCnt.toNat = 127 then enterState .timeout f else stayCounting f :=
  if_congr phaseAtBound_iff rfl rfl

end Comparisons

/-! ### The tick of a state -/

section Tick
variable {s : State}

/-- The code of the state that the register holds is a plain tick (`10_state.md` R10). -/
theorem exec_of_state {x : FsmState} (hs : s.fsm.state = x) : exec (fsmInstr x) s = .next (sysTick s) := by
  rw [← hs, exec_fsmInstr_state]

variable (hrst : s.inp.rst = false)
include hrst

theorem restTicks_sysTick : RestTicks s (sysTick s) := by
  rw [sysTick_eq s hrst]
  exact restTicks_run _ s

theorem sysTick_out : (sysTick s).out = outputsNow s := by
  rw [sysTick_eq s hrst, runTickCalling_out]

theorem sysTick_ack : (sysTick s).out.ack = ackOf s.fsm.state := by
  rw [sysTick_out hrst]
  rfl

theorem sysTick_devMem : (sysTick s).devMem = deviceAfter (fsmNow s).call s := by
  rw [sysTick_eq s hrst, runTickCalling_devMem]

theorem sysTick_devMem_of_ne_wPrep (hs : s.fsm.state ≠ .wPrep) : (sysTick s).devMem = s.devMem := by
  rw [sysTick_devMem hrst, deviceAfter_of_ne_wPrep _ hs]

/-- A tick adds the same to every rule (`42_protocol_fsm.md` R161). -/
theorem sysTick_fsm : (sysTick s).fsm = Ticked s (fsmNow s).fsm := by
  rw [sysTick_eq s hrst, runTickCalling_fsm]
  rfl

theorem sysTick_queuedWord {w : Word} {m : BitVec 4} (hcall : (fsmNow s).call = some ⟨w, m⟩) :
    QueuedWord (sysTick s).phy w m := by
  rw [sysTick_eq s hrst, hcall]
  exact runTickCalling_some_queuedWord s w m

theorem sysTick_idleWord (hcall : (fsmNow s).call = none) : IdleWord (sysTick s).phy := by
  rw [sysTick_eq s hrst, hcall]
  exact runTickCalling_none_idleWord s

/-- What a rule without a `shiftOut` call leaves, `f` being the registers before what every tick adds. -/
theorem sysTick_of_quiet_rule {f : Fsm} (hrule : fsmNow s = ⟨f, none⟩) :
    (sysTick s).devMem = s.devMem ∧ IdleWord (sysTick s).phy ∧ (sysTick s).fsm = Ticked s f := by
  refine ⟨?_, sysTick_idleWord hrst (by rw [hrule]), by rw [sysTick_fsm hrst, hrule]⟩
  rw [sysTick_devMem hrst, hrule]
  exact deviceAfter_none s

/-- The tick of a state whose rule makes no call. -/
theorem exists_next_of_quiet_rule {x : FsmState} {f : Fsm} (hs : s.fsm.state = x) (hrule : fsmNow s = ⟨f, none⟩) :
    ∃ t, exec (fsmInstr x) s = .next t ∧ RestTicks s t ∧ t.devMem = s.devMem ∧ IdleWord t.phy ∧
      t.fsm = Ticked s f :=
  ⟨sysTick s, exec_of_state hs, restTicks_sysTick hrst, sysTick_of_quiet_rule hrst hrule⟩

end Tick

/-! ### Opening a window -/

/-- Settles O11: the two branches of `IDLE`'s rule; the one that takes the request is `sysTick_opens_window`. -/
theorem idleTakesARequest : Obligations.IdleTakesARequest := by
  intro s hrst hs
  refine ⟨sysTick s, exec_of_state hs, restTicks_sysTick hrst, sysTick_devMem_of_ne_wPrep hrst (by simp [hs]),
    fun ⟨hcyc, hstb⟩ => ?taken, fun hnone => ?stays⟩
  case taken =>
    have hreq : busRequest (adapterIn s) = true := by simp [busRequest, hcyc, hstb]
    exact (sysTick_opens_window hrst hs hreq).2
  case stays =>
    have hreq : ¬ busRequest (adapterIn s) = true := by obtain h | h := hnone <;> simp [busRequest, h]
    have hrule : fsmNow s = ⟨enterState .idle (clearWindow s.fsm), none⟩ := by
      rw [fsmNow, fsmRule_idle hs, ruleIdle, if_neg hreq]
    obtain ⟨-, hidle, hfsm⟩ := sysTick_of_quiet_rule hrst hrule
    exact ⟨hfsm, hidle⟩

/-- Settles O12: the counter decides between staying and leaving, and its first value alone makes the call. -/
theorem commandWindowLastsFourCycles : Obligations.CommandWindowLastsFourCycles := by
  intro s hrst hs _
  have hrule : fsmNow s = ruleCmd s.fsm := fsmRule_cmd hs
  refine ⟨sysTick s, exec_of_state hs, restTicks_sysTick hrst, sysTick_devMem_of_ne_wPrep hrst (by simp [hs]),
    fun hlt => ?stays, fun hlast => ?leaves, fun hfirst => ?sends, fun hlater => ?silent⟩
  case stays =>
    have hdone : ¬ commandDone s.fsm = true := fun h => by rw [commandDone_iff] at h; omega
    rw [sysTick_fsm hrst, hrule, ruleCmd, if_neg hdone]
    rfl
  case leaves =>
    rw [sysTick_fsm hrst, hrule, ruleCmd, if_pos (commandDone_iff.mpr hlast)]
    rfl
  case sends => exact sysTick_queuedWord hrst (by rw [hrule, ruleCmd, if_pos hfirst]; rfl)
  case silent => exact sysTick_idleWord hrst (by rw [hrule, ruleCmd, if_neg hlater])

/-! ### The read path -/

section Read
variable {s : State}

theorem fsmNow_rwdsWait (hs : s.fsm.state = .rwdsWait) :
    fsmNow s =
      ⟨if qual s.fsm s.phy then enterState .readStart s.fsm
        else if s.fsm.phaseCnt.toNat = 127 then enterState .timeout s.fsm else stayCounting s.fsm, none⟩ := by
  rw [fsmNow, fsmRule_rwdsWait hs, ruleRwdsWait, waitForStrobe_eq]

theorem fsmNow_readStart (hs : s.fsm.state = .readStart) :
    fsmNow s =
      ⟨if qual s.fsm s.phy then captureWord s.phy s.fsm
        else if s.fsm.phaseCnt.toNat = 127 then enterState .timeout s.fsm else stayCounting s.fsm, none⟩ := by
  rw [fsmNow, fsmRule_readStart hs, ruleReadStart, waitForStrobe_eq]

theorem fsmNow_readAck (hs : s.fsm.state = .readAck) :
    fsmNow s = ⟨enterState .readBurst (countWord { s.fsm with contHint := burstHint (adapterIn s) }), none⟩ := by
  rw [fsmNow, fsmRule_readAck hs, ruleReadAck]

/-- The next word of a burst needs the hint, room in the window and the strobe (`42_protocol_fsm.md` R151). -/
theorem fsmNow_readBurst (hs : s.fsm.state = .readBurst) :
    fsmNow s =
      ⟨if s.fsm.contHint = true ∧ s.fsm.burstCnt.toNat < 512 ∧ s.fsm.strobeLast = false ∧
            s.phy.rxStrobe.getLsbD 3 = true then captureWord s.phy s.fsm
        else enterState .idle (clearWindow { s.fsm with cs := false, clkEn := false }), none⟩ := by
  have hnext : (mayContinue s.fsm && qual s.fsm s.phy) = true ↔ s.fsm.contHint = true ∧
      s.fsm.burstCnt.toNat < 512 ∧ s.fsm.strobeLast = false ∧ s.phy.rxStrobe.getLsbD 3 = true := by
    rw [Bool.and_eq_true, mayContinue_iff, qual_iff, and_assoc]
  rw [fsmNow, fsmRule_readBurst hs, ruleReadBurst, if_congr hnext rfl rfl]

end Read

/-- Settles O14: the two rules, with the acknowledgment and the word of the state that the tick ends. -/
theorem readWordsAreDelivered : Obligations.ReadWordsAreDelivered := by
  intro s hrst
  constructor
  · intro hs
    obtain ⟨hmem, hidle, hfsm⟩ := sysTick_of_quiet_rule hrst (fsmNow_readAck hs)
    have hack : (sysTick s).out.ack = true := by rw [sysTick_ack hrst, hs]; rfl
    have hword : (sysTick s).out.readData = s.fsm.readData := by
      rw [sysTick_out hrst]
      exact if_neg (by simp [hs])
    exact ⟨sysTick s, exec_of_state hs, restTicks_sysTick hrst, hmem, hidle, hack, hword, hfsm⟩
  · intro hs
    obtain ⟨hmem, hidle, hfsm⟩ := sysTick_of_quiet_rule hrst (fsmNow_readBurst hs)
    have hack : (sysTick s).out.ack = false := by rw [sysTick_ack hrst, hs]; rfl
    exact ⟨sysTick s, exec_of_state hs, restTicks_sysTick hrst, hmem, hidle, hack, hfsm⟩

/-! ### The write path -/

section Write
variable {s : State}

theorem fsmNow_latencyWrite (hs : s.fsm.state = .latencyWrite) :
    fsmNow s =
      ⟨if s.fsm.phaseCnt.toNat + 1 = s.params.writeLatency then
          enterState .wPrep { s.fsm with dqOe := true, rwdsOe := true }
        else stayCounting s.fsm, none⟩ := by
  rw [fsmNow, fsmRule_latencyWrite hs, ruleLatencyWrite, if_congr latencyDone_iff rfl rfl]

theorem fsmNow_wPrep (hs : s.fsm.state = .wPrep) :
    fsmNow s = ruleWPrep (adapterIn s) s.fsm :=
  fsmRule_wPrep hs

/-- The next word of a burst needs the hint and room in the window (`42_protocol_fsm.md` R156). -/
theorem fsmNow_writeBurst (hs : s.fsm.state = .writeBurst) :
    fsmNow s =
      ⟨enterState (if s.fsm.contHint = true ∧ s.fsm.burstCnt.toNat < 512 then .wPrep else .writeFinish) s.fsm,
        none⟩ := by
  rw [fsmNow, fsmRule_writeBurst hs, ruleWriteBurst, if_congr mayContinue_iff rfl rfl]
  split <;> rfl

theorem fsmNow_writeFinish (hs : s.fsm.state = .writeFinish) :
    fsmNow s = ⟨enterState .cleanup { s.fsm with clkEn := false }, none⟩ :=
  fsmRule_writeFinish hs

variable (hrst : s.inp.rst = false) (hs : s.fsm.state = .wPrep)
include hrst hs

/-- The word of the request on the bus goes to the pins (`42_protocol_fsm.md` R155). -/
theorem sysTick_wPrep_queuedWord :
    QueuedWord (sysTick s).phy (adapterIn s).datW (~~~(adapterIn s).sel) :=
  sysTick_queuedWord hrst (by rw [fsmNow_wPrep hs, ruleWPrep])

theorem sysTick_wPrep_fsm : (sysTick s).fsm = Ticked s (ruleWPrep (adapterIn s) s.fsm).fsm := by
  rw [sysTick_fsm hrst, fsmNow_wPrep hs]

theorem sysTick_wPrep_devMem :
    (sysTick s).devMem =
      deviceWrite s.fsm.ca s.fsm.burstCnt.toNat ⟨(adapterIn s).datW, ~~~(adapterIn s).sel⟩ s.devMem := by
  rw [sysTick_devMem hrst, fsmNow_wPrep hs, ruleWPrep, deviceAfter_wPrep _ hs]

/-- A word-faithful device stores the selected bytes of the request's word (`20_memory.md` R65). -/
theorem sysTick_wPrep_byte : ∀ b < 4,
    (sysTick s).devMem.byte (deviceByteAddr s.fsm.ca s.fsm.burstCnt.toNat b) =
      if (adapterIn s).sel.getLsbD (3 - b) then some ((adapterIn s).datW.extractLsb' (24 - 8 * b) 8)
      else s.devMem.byte (deviceByteAddr s.fsm.ca s.fsm.burstCnt.toNat b) := by
  intro b hb
  rw [sysTick_wPrep_devMem hrst hs, byte_deviceWrite_same _ _ _ _ hb, beatStrobe_not]
  cases (adapterIn s).sel.getLsbD (3 - b) <;> rfl

theorem sysTick_wPrep_byte_ne (a : Nat) (ha : ∀ b < 4, a ≠ deviceByteAddr s.fsm.ca s.fsm.burstCnt.toNat b) :
    (sysTick s).devMem.byte a = s.devMem.byte a := by
  rw [sysTick_wPrep_devMem hrst hs, byte_deviceWrite_ne _ _ _ _ _ fun b hb _ => ha b hb]

end Write

/-- Settles O15: the wait of `LATENCY_WRITE`, and the transmit of `W_PREP` with its bytes in storage. -/
theorem writeWordsAreSent : Obligations.WriteWordsAreSent := by
  intro s hrst
  refine ⟨fun hs _ => exists_next_of_quiet_rule hrst hs (fsmNow_latencyWrite hs), fun hs => ?_⟩
  have hack : (sysTick s).out.ack = true := by rw [sysTick_ack hrst, hs]; rfl
  exact ⟨sysTick s, exec_of_state hs, restTicks_sysTick hrst, hack, sysTick_wPrep_queuedWord hrst hs,
    sysTick_wPrep_fsm hrst hs, sysTick_wPrep_byte hrst hs, sysTick_wPrep_byte_ne hrst hs⟩

/-- Settles O16: the rules of `WRITE_BURST` and `WRITE_FINISH`, neither of which makes a call. -/
theorem writeWindowEnds : Obligations.WriteWindowEnds := fun _ hrst =>
  ⟨fun hs => exists_next_of_quiet_rule hrst hs (fsmNow_writeBurst hs),
    fun hs => exists_next_of_quiet_rule hrst hs (fsmNow_writeFinish hs)⟩

/-! ### The way out -/

/-- Settles O17: the rules of `TIMEOUT` and `CLEANUP`; the forced acknowledgment is the state's own. -/
theorem timeoutAndCleanup : Obligations.TimeoutAndCleanup := by
  intro s hrst
  constructor
  · intro hs
    obtain ⟨hmem, hidle, hfsm⟩ := sysTick_of_quiet_rule hrst (fsmRule_timeout hs)
    have hack : (sysTick s).out.ack = true := by rw [sysTick_ack hrst, hs]; rfl
    exact ⟨sysTick s, exec_of_state hs, restTicks_sysTick hrst, hmem, hidle, hack, hfsm⟩
  · exact fun hs => exists_next_of_quiet_rule hrst hs (fsmRule_cleanup hs)

end Sys2Proof.Machine

/-! SUPPORT. The bus requests: an operation of format `BUS` is one tick with its vector on the external master's lines,
which the protocol FSM looks at in `IDLE`, `READ_ACK` and `W_PREP` alone (`44_bus_adapter.md` R192 to R197,
`42_protocol_fsm.md` R163). -/

namespace Sys2Proof.Machine

/-! ### The request on the lines -/

/-- Each of the sixteen requests is the tick with its vector on the lines (`30_encoding.md` R85). -/
theorem exec_of_requestOf {i : Instr} {we : Bool} {cti : BitVec 3} {o : BusOperands}
    (h : requestOf i = some (we, cti, o)) (s : State) : exec i s = .next (sysTick (s.putRequest we cti o)) := by
  cases i <;> cases h <;> rfl

theorem isBusOp_cases {i : Instr} (h : isBusOp i = true) :
    (∃ we cti, i = .busNop we cti) ∨ ∃ r, requestOf i = some r := by
  unfold isBusOp at h
  split at h
  · exact .inl ⟨_, _, rfl⟩
  · exact .inr (Option.isSome_iff_exists.mp h)

/-- Every operation of format `BUS` puts some vector on the lines; `BUS.NOP` leaves the operands as they are. -/
theorem exists_exec_of_isBusOp {i : Instr} (h : isBusOp i = true) (s : State) :
    ∃ b, exec i s = .next (sysTick (s.putBus b)) := by
  obtain ⟨we, cti, rfl⟩ | ⟨⟨we, cti, o⟩, hr⟩ := isBusOp_cases h
  · exact ⟨_, rfl⟩
  · exact ⟨_, exec_of_requestOf hr s⟩

theorem restTicks_putRequest (we : Bool) (cti : BitVec 3) (o : BusOperands) {s : State} (hrst : s.inp.rst = false) :
    RestTicks s.withExternal (sysTick (s.putRequest we cti o)) := by
  rw [sysTick_eq (s.putRequest we cti o) hrst]
  exact restTicks_putBus _ s _

/-- Settles O22: the sixteen operations put a request on the lines, which `IDLE` takes. -/
theorem busRequestOpensAWindow : Obligations.BusRequestOpensAWindow := by
  intro i we cti o s hi hrst hs
  exact ⟨_, exec_of_requestOf hi s, restTicks_putRequest we cti o hrst,
    sysTick_opens_window (s := s.putRequest we cti o) hrst hs rfl⟩

/-! ### The request in an acknowledgment cycle -/

/-- Settles O25: the rules of `READ_ACK` and `W_PREP`, on the lines that hold the request. -/
theorem acknowledgedRequestGivesHintAndData : Obligations.AcknowledgedRequestGivesHintAndData := by
  intro i we cti o s hi hrst hack
  refine ⟨_, exec_of_requestOf hi s, restTicks_putRequest we cti o hrst, ?_⟩
  have hout : (sysTick (s.putRequest we cti o)).out.ack = true := by
    rw [sysTick_ack (s := s.putRequest we cti o) hrst, putRequest_fsm]
    obtain hs | hs := hack <;> rw [hs] <;> rfl
  obtain hs | hs := hack
  · obtain ⟨hmem, -, hfsm⟩ :=
      sysTick_of_quiet_rule (s := s.putRequest we cti o) hrst (fsmNow_readAck (s := s.putRequest we cti o) hs)
    rw [hfsm]
    exact ⟨rfl, rfl, hout, fun _ => ⟨rfl, hmem⟩, fun hprep => by simp [hs] at hprep⟩
  · rw [sysTick_wPrep_fsm (s := s.putRequest we cti o) hrst hs]
    exact ⟨rfl, rfl, hout, fun hread => by simp [hs] at hread, fun _ =>
      ⟨rfl, sysTick_wPrep_queuedWord (s := s.putRequest we cti o) hrst hs,
        sysTick_wPrep_byte (s := s.putRequest we cti o) hrst hs,
        sysTick_wPrep_byte_ne (s := s.putRequest we cti o) hrst hs⟩⟩

/-! ### The vector in every other state -/

/-- The rules of the nine other states do not have the adapter's lines (`42_protocol_fsm.md` R163). -/
theorem fsmRule_bus_irrelevant {p : Params} {x : Phy} {f : Fsm} (hidle : f.state ≠ .idle)
    (hread : f.state ≠ .readAck) (hprep : f.state ≠ .wPrep) (b b' : BusIn) :
    fsmRule p b x f = fsmRule p b' x f := by
  cases hs : f.state
  case idle => exact absurd hs hidle
  case readAck => exact absurd hs hread
  case wPrep => exact absurd hs hprep
  all_goals simp only [fsmRule, hs]

/-- Two vectors on the same lines, where the protocol FSM's rule is the same: a reset overrides it, and no other component
looks at the vector. -/
theorem sysTick_putBus_agree {s : State} {b b' : BusIn} (h : fsmNow (s.putBus b) = fsmNow (s.putBus b')) :
    AgreeRegisters (sysTick (s.putBus b)) (sysTick (s.putBus b')) ∧
      (sysTick (s.putBus b)).out = (sysTick (s.putBus b')).out := by
  cases hrst : s.inp.rst
  · have hfsm : fsmAfter (s.putBus b) = fsmAfter (s.putBus b') := by
      rw [fsmAfter, fsmAfter, h]
      rfl
    rw [sysTick_eq (s.putBus b) hrst, sysTick_eq (s.putBus b') hrst, h]
    exact ⟨⟨rfl, hfsm, rfl, rfl, rfl, rfl, rfl, rfl, rfl, rfl, rfl⟩, rfl⟩
  · rw [sysTick_reset (s.putBus b) hrst, sysTick_reset (s.putBus b') hrst]
    exact ⟨⟨rfl, rfl, rfl, rfl, rfl, rfl, rfl, rfl, rfl, rfl, rfl⟩, rfl⟩

/-- Settles O26: two operations of format `BUS` are two vectors on the same lines, and outside the three states the rule
does not have the vector. -/
theorem busVectorIgnoredElsewhere : Obligations.BusVectorIgnoredElsewhere := by
  intro i j s hi hj hidle hread hprep
  obtain ⟨b, hb⟩ := exists_exec_of_isBusOp hi s
  obtain ⟨b', hb'⟩ := exists_exec_of_isBusOp hj s
  exact ⟨_, _, hb, hb', sysTick_putBus_agree (fsmRule_bus_irrelevant hidle hread hprep b b')⟩

end Sys2Proof.Machine

/-! SUPPORT. The timeout: the condition X1 alone leads to `TIMEOUT`, and a responsive environment never lets a wait come
to it, whatever resets the run has (`42_protocol_fsm.md` R146 to R149, R160, `20_memory.md` R66). -/

namespace Sys2Proof.Machine

/-- ProtocolTimeout as a condition on the registers (`60_exceptions.md` R290). -/
theorem timeoutNow_iff {f : Fsm} {x : Phy} :
    timeoutNow f x = true ↔
      (f.state = .rwdsWait ∨ f.state = .readStart) ∧ f.phaseCnt.toNat = 127 ∧ qual f x = false := by
  simp only [timeoutNow, Bool.and_eq_true, Bool.or_eq_true, beq_iff_eq, phaseAtBound_iff, Bool.not_eq_true', and_assoc]

/-- Settles O20: of the ticks an operation can be, a foreign one leaves the state register, a reset puts it to `IDLE`, and
a running one goes by the transition table, in which `TIMEOUT` is entered by the condition alone. -/
theorem timeoutOnlyAtTheBound : Obligations.TimeoutOnlyAtTheBound := by
  intro i s t h hsel hne ht
  obtain ⟨u, hu, ⟨call, rfl⟩ | ⟨d, rfl⟩⟩ := exec_cases h
  · cases hrst : u.inp.rst
    · rw [sysTickCalling_run call u hrst, runTickCalling_fsm, fsmAfter, everyTick_state, fsmNow, fsmRule_state,
        nextFsmState_eq_timeout_iff, hu.fsm_eq hsel, hu.phy] at ht
      obtain ⟨hwait, hbound, -⟩ := timeoutNow_iff.mp ht
      exact ⟨hwait, hbound, ht⟩
    · rw [sysTickCalling_reset call u hrst, resetTick_fsm] at ht
      exact absurd ht (by decide)
  · rw [domainTick_fsm, hu.fsm_eq hsel] at ht
    exact absurd ht hne

/-! ### A responsive run, resets included -/

section Run
variable {l : Nat → Inputs} {s : State} {k : Nat}

theorem cycleAt_succ_state_of_reset (hrst : (l k).rst = true) : (cycleAt l s (k + 1)).fsm.state = .idle := by
  show (sysTick (cycleAt l s k)).fsm.state = _
  rw [sysTick_reset _ (by rwa [cycleAt_inp]), resetTick_fsm]
  rfl

/-- In a run from `IDLE` a wait for the strobe has a first cycle, from which on there is no reset, and its counter has not
passed the bound: the registers before the window are of no account, since a window opens with the counter at 0. -/
theorem exists_waitsSince_of_idle (hidle : s.fsm.state = .idle)
    (hwait : (cycleAt l s k).fsm.state = .rwdsWait ∨ (cycleAt l s k).fsm.state = .readStart) :
    (cycleAt l s k).fsm.phaseCnt.toNat ≤ 127 ∧
      ∃ e, WaitsSince l s e k ∧ ∀ j, e ≤ j → j < k → (l j).rst = false := by
  induction k with
  | zero =>
    change s.fsm.state = .rwdsWait ∨ s.fsm.state = .readStart at hwait
    simp [hidle] at hwait
  | succ k ih =>
    cases hr : (l k).rst
    case true => simp [cycleAt_succ_state_of_reset hr] at hwait
    have hnext := cycleAt_succ_state (s := s) hr
    by_cases hmove : (cycleAt l s (k + 1)).fsm.state = (cycleAt l s k).fsm.state
    · rw [hmove] at hwait
      obtain ⟨hq, hbound, hstay⟩ := fsmRule_of_wait hwait (hnext.symm.trans hmove)
      obtain ⟨hle, e, ⟨hage, hsame, hentered, hun⟩, hlow⟩ := ih hwait
      have hlt : (cycleAt l s k).fsm.phaseCnt.toNat ≠ 127 := fun h => by simp [phaseAtBound_iff.mpr h] at hbound
      have hphase : (cycleAt l s (k + 1)).fsm.phaseCnt.toNat = (cycleAt l s k).fsm.phaseCnt.toNat + 1 := by
        rw [cycleAt_succ_fsm hr, fsmAfter, everyTick_phaseCnt, fsmNow, hstay,
          stayCounting_phaseCnt_toNat (by omega)]
      refine ⟨by omega, e, ⟨by omega, hsame.trans hmove.symm, hentered, fun j hej hjk => ?_⟩, fun j hej hjk => ?_⟩
      all_goals obtain hjk | rfl : j < k ∨ j = k := by omega
      exacts [hun j hej hjk, hq, hlow j hej hjk, hr]
    · have hzero : (cycleAt l s (k + 1)).fsm.phaseCnt = 0 := by
        rw [cycleAt_succ_fsm hr, fsmAfter, everyTick_phaseCnt]
        exact fsmRule_phaseCnt_of_move (hnext ▸ hmove)
      exact ⟨by simp [hzero], k + 1, waitsSince_self hzero, fun j hj hk => absurd hk (by omega)⟩

/-- In a responsive run from `IDLE` no wait that goes on in cycle `k` meets the timeout's condition (`20_memory.md`
R66). -/
theorem timeoutNow_of_responsiveRun_from_idle (hidle : s.fsm.state = .idle) (hresp : ResponsiveRun l s)
    (hrst : (l k).rst = false) : timeoutNow (cycleAt l s k).fsm (cycleAt l s k).phy = false := by
  rw [Bool.eq_false_iff, Ne, timeoutNow_iff]
  rintro ⟨hwait, hbound, hq⟩
  obtain ⟨-, e, ⟨hage, hsame, hentered, hun⟩, hlow⟩ := exists_waitsSince_of_idle hidle hwait
  have hstrobe : StrobeInTime l s e := by
    obtain hs | hs := hwait
    · exact hresp.command e (hsame.trans hs) hentered
    · exact hresp.firstWord e (hsame.trans hs) hentered
  obtain ⟨j, hj, hin⟩ := hstrobe
  have hj : j < 128 := hj
  obtain hlt | heq : e + j < k ∨ e + j = k := by omega
  · simp [hlow (e + j) (by omega) hlt, hun (e + j) (by omega) hlt] at hin
  · simp [heq, hrst, hq] at hin

end Run

/-- Settles O13: the rules of the two waiting states, and that `TIMEOUT`, which only the condition X1 leads to, is not
entered in a responsive run. That a reset releases the device is the model's choice, log entry 4. -/
theorem waitsForTheStrobeAreBounded : Obligations.WaitsForTheStrobeAreBounded := by
  refine ⟨fun s hrst => ⟨fun hs => exists_next_of_quiet_rule hrst hs (fsmNow_rwdsWait hs),
    fun hs => exists_next_of_quiet_rule hrst hs (fsmNow_readStart hs)⟩, ?_⟩
  intro l s n hidle hresp htimeout
  cases n with
  | zero => exact absurd (hidle.symm.trans htimeout) (by decide)
  | succ k =>
    cases hr : (l k).rst
    · have hcondition := nextFsmState_eq_timeout_iff.mp ((cycleAt_succ_state hr).symm.trans htimeout)
      simp [timeoutNow_of_responsiveRun_from_idle hidle hresp hr] at hcondition
    · simp [cycleAt_succ_state_of_reset hr] at htimeout

end Sys2Proof.Machine

/-! SUPPORT. The supervisor's liveness: a count of the cycles that an open window may still take to its acknowledgment,
which every running tick brings down (`43_burst_timeout_supervisor.md` R182 to R185, `42_protocol_fsm.md` R164). -/

namespace Sys2Proof.Machine

/-- The window is acknowledged now or within `n` cycles: the longest way from the state to an acknowledgment is at most
`n` cycles and those its phase counter has counted. From `RWDS_WAIT` that way is two waits for the strobe; from `CMD` it
is the longer of the read and the write path. -/
def AckDue (p : Params) (f : Fsm) (n : Nat) : Prop :=
  match f.state with
  | .cmd => Config.cmdCycles + 2 * Config.timeoutCycles ≤ f.phaseCnt.toNat + n
  | .rwdsWait => 2 * Config.timeoutCycles ≤ f.phaseCnt.toNat + n
  | .readStart => Config.timeoutCycles ≤ f.phaseCnt.toNat + n
  | .latencyWrite => p.writeLatency ≤ f.phaseCnt.toNat + n
  | .readAck => True
  | .wPrep => True
  | .timeout => True
  | .idle => False
  | .readBurst => False
  | .writeBurst => False
  | .writeFinish => False
  | .cleanup => False

/-! ### What the count says in a state -/

section Count
variable {p : Params} {f : Fsm} {n : Nat}

theorem ackDue_cmd_iff (hs : f.state = .cmd) : AckDue p f n ↔ 260 ≤ f.phaseCnt.toNat + n := by
  simp [AckDue, hs, Config.cmdCycles, Config.timeoutCycles]

theorem ackDue_rwdsWait_iff (hs : f.state = .rwdsWait) : AckDue p f n ↔ 256 ≤ f.phaseCnt.toNat + n := by
  simp [AckDue, hs, Config.timeoutCycles]

theorem ackDue_readStart_iff (hs : f.state = .readStart) : AckDue p f n ↔ 128 ≤ f.phaseCnt.toNat + n := by
  simp [AckDue, hs, Config.timeoutCycles]

theorem ackDue_latencyWrite_iff (hs : f.state = .latencyWrite) :
    AckDue p f n ↔ p.writeLatency ≤ f.phaseCnt.toNat + n := by
  simp [AckDue, hs]

theorem ackDue_of_ackOf (h : ackOf f.state = true) : AckDue p f n := by
  cases hs : f.state <;> simp_all [AckDue, ackOf]

/-- An unacknowledged window is in one of the counted states. -/
theorem AckDue.counted (h : AckDue p f n) (hack : ackOf f.state = false) :
    f.state = .cmd ∨ f.state = .rwdsWait ∨ f.state = .readStart ∨ f.state = .latencyWrite := by
  cases hs : f.state <;> simp_all [AckDue, ackOf]

/-- One more cycle in a counted state is one cycle less to the acknowledgment. -/
theorem ackDue_stayCounting (h : AckDue p f (n + 1)) (hlt : f.phaseCnt.toNat < 255) :
    AckDue p (stayCounting f) n := by
  have hsum : (stayCounting f).phaseCnt.toNat + n = f.phaseCnt.toNat + (n + 1) := by
    rw [stayCounting_phaseCnt_toNat hlt]
    omega
  unfold AckDue
  rw [stayCounting_state, hsum]
  exact h

end Count

/-! ### A tick brings the count down -/

section Tick
variable {s : State} {n : Nat}

/-- The write latency of a legal build (`43_burst_timeout_supervisor.md` R184). -/
theorem writeLatency_range_of_inv (hinv : s.Inv) : 1 ≤ s.params.writeLatency ∧ s.params.writeLatency ≤ 256 := by
  have hlegal := params_legal_of_inv hinv
  simp only [Params.legal, Bool.and_eq_true, decide_eq_true_eq] at hlegal
  exact hlegal.1

theorem ackDue_of_fsmNow (hrst : s.inp.rst = false) (h : AckDue s.params (fsmNow s).fsm n) :
    AckDue (sysTick s).params (sysTick s).fsm n := by
  rw [sysTick_params, sysTick_fsm hrst]
  exact h

/-- The command window leads to two waits for the strobe or to a write latency, which is no longer
(`42_protocol_fsm.md` R145). -/
theorem ackDue_fsmNow_of_cmd (hinv : s.Inv) (hs : s.fsm.state = .cmd) (h : AckDue s.params s.fsm (n + 1)) :
    AckDue s.params (fsmNow s).fsm n := by
  have hphase : s.fsm.phaseCnt.toNat ≤ 3 := by simpa [hs, phaseBound, Config.cmdCycles] using hinv.fsm.phase
  obtain ⟨-, hlatency⟩ := writeLatency_range_of_inv hinv
  rw [fsmNow, fsmRule_cmd hs, ruleCmd]
  split
  · rename_i hdone
    rw [commandDone_iff] at hdone
    rw [ackDue_cmd_iff hs] at h
    split
    · rw [ackDue_rwdsWait_iff rfl]
      omega
    · rw [ackDue_latencyWrite_iff rfl]
      omega
  · exact ackDue_stayCounting h (by omega)

/-- The strobe ends the wait for it and leaves one more; without it the wait goes on to its bound, where the forced
acknowledgment is (`42_protocol_fsm.md` R146, R147). -/
theorem ackDue_fsmNow_of_rwdsWait (hinv : s.Inv) (hs : s.fsm.state = .rwdsWait)
    (h : AckDue s.params s.fsm (n + 1)) : AckDue s.params (fsmNow s).fsm n := by
  have hphase : s.fsm.phaseCnt.toNat ≤ 127 := by simpa [hs, phaseBound, Config.timeoutCycles] using hinv.fsm.phase
  rw [fsmNow_rwdsWait hs]
  split
  · rw [ackDue_rwdsWait_iff hs] at h
    rw [ackDue_readStart_iff rfl]
    simp only [enterState_phaseCnt]
    omega
  · split
    · exact ackDue_of_ackOf rfl
    · exact ackDue_stayCounting h (by omega)

/-- A wait for the first word ends in an acknowledgment, with the word or forced (`42_protocol_fsm.md` R148, R149). -/
theorem ackDue_fsmNow_of_readStart (hinv : s.Inv) (hs : s.fsm.state = .readStart)
    (h : AckDue s.params s.fsm (n + 1)) : AckDue s.params (fsmNow s).fsm n := by
  have hphase : s.fsm.phaseCnt.toNat ≤ 127 := by simpa [hs, phaseBound, Config.timeoutCycles] using hinv.fsm.phase
  rw [fsmNow_readStart hs]
  split
  · exact ackDue_of_ackOf rfl
  · split
    · exact ackDue_of_ackOf rfl
    · exact ackDue_stayCounting h (by omega)

/-- The write latency ends in the acknowledgment of `W_PREP` (`42_protocol_fsm.md` R153, R154). -/
theorem ackDue_fsmNow_of_latencyWrite (hinv : s.Inv) (hs : s.fsm.state = .latencyWrite)
    (h : AckDue s.params s.fsm (n + 1)) : AckDue s.params (fsmNow s).fsm n := by
  have hphase : s.fsm.phaseCnt.toNat ≤ s.params.writeLatency - 1 := by simpa [hs, phaseBound] using hinv.fsm.phase
  obtain ⟨-, hlatency⟩ := writeLatency_range_of_inv hinv
  rw [fsmNow_latencyWrite hs]
  split
  · exact ackDue_of_ackOf rfl
  · exact ackDue_stayCounting h (by omega)

/-- Every running tick brings an unacknowledged window one cycle nearer to its acknowledgment. -/
theorem ackDue_sysTick (hinv : s.Inv) (hrst : s.inp.rst = false) (hack : ackNow s = false)
    (h : AckDue s.params s.fsm (n + 1)) : AckDue (sysTick s).params (sysTick s).fsm n := by
  refine ackDue_of_fsmNow hrst ?_
  obtain hs | hs | hs | hs := h.counted hack
  · exact ackDue_fsmNow_of_cmd hinv hs h
  · exact ackDue_fsmNow_of_rwdsWait hinv hs h
  · exact ackDue_fsmNow_of_readStart hinv hs h
  · exact ackDue_fsmNow_of_latencyWrite hinv hs h

/-- With no cycle left the acknowledgment is now: no phase counter passes its bound (`10_state.md` R13). -/
theorem ackNow_of_ackDue_zero (hinv : s.Inv) (h : AckDue s.params s.fsm 0) : ackNow s = true := by
  obtain ⟨hlatency, -⟩ := writeLatency_range_of_inv hinv
  have hphase := hinv.fsm.phase
  rw [← Bool.not_eq_false]
  intro hack
  obtain hs | hs | hs | hs := h.counted hack <;>
    simp only [AckDue, hs, phaseBound, Config.cmdCycles, Config.timeoutCycles] at h hphase <;> omega

end Tick

/-! ### A run to the acknowledgment -/

theorem State.Inv.withInputs {s : State} (h : s.Inv) (l : Inputs) : State.Inv { s with inp := l } :=
  h.congr rfl rfl rfl rfl rfl rfl rfl rfl

theorem State.Inv.sysTick {s : State} (h : s.Inv) : (sysTick s).Inv :=
  h.sysTickCalling (fsmNow s).call

/-- In a run without reset that is as long as the count, some cycle has the acknowledgment. -/
theorem exists_ackNow_of_ackDue {ls : List Inputs} {s : State} (hinv : s.Inv) (hrst : ∀ l ∈ ls, l.rst = false)
    (hdue : AckDue s.params s.fsm ls.length) : ∃ k ≤ ls.length, ackNow (sysCycles (ls.take k) s) = true := by
  induction ls generalizing s with
  | nil => exact ⟨0, le_rfl, ackNow_of_ackDue_zero hinv hdue⟩
  | cons l rest ih =>
    cases hack : ackNow s
    · obtain ⟨hl, hrest⟩ := List.forall_mem_cons.mp hrst
      have hnext := ackDue_sysTick (hinv.withInputs l) hl hack hdue
      obtain ⟨k, hk, hfound⟩ := ih (hinv.withInputs l).sysTick hrest hnext
      exact ⟨k + 1, Nat.succ_le_succ hk, hfound⟩
    · exact ⟨0, Nat.zero_le _, hack⟩

/-- Settles O60: a window that has just opened has a count of four cycles of command and two waits of 128, and a run is
acknowledged within its count. -/
theorem windowIsAcknowledgedInTime : Obligations.WindowIsAcknowledgedInTime := by
  intro s ls hinv hs hzero hlength hrst
  have hdue : AckDue s.params s.fsm ls.length := by
    rw [ackDue_cmd_iff hs, hzero, hlength]
    decide
  exact hlength ▸ exists_ackNow_of_ackDue hinv hrst hdue

end Sys2Proof.Machine

/-! SUPPORT. The adapter's view of the request vector and of the acknowledgment: a vector without a request, a cycle type
that is not `LINEAR_BURST`, and the tick of an acknowledged cycle (`44_bus_adapter.md` R196 to R198). -/

namespace Sys2Proof.Machine

/-! ### No request -/

/-- Without `cyc` and `stb` `IDLE` stays, with the window cleared (`42_protocol_fsm.md` R142). -/
theorem fsmNow_idle_of_no_request {s : State} (hs : s.fsm.state = .idle) (hreq : busRequest (adapterIn s) = false) :
    fsmNow s = ⟨enterState .idle (clearWindow s.fsm), none⟩ := by
  rw [fsmNow, fsmRule_idle hs, ruleIdle, if_neg (by simp [hreq])]

/-- An acknowledgment cycle takes its hint from the vector on the bus (`42_protocol_fsm.md` R150, R155). -/
theorem sysTick_contHint_of_delivery {s : State} (hrst : s.inp.rst = false)
    (hs : s.fsm.state = .readAck ∨ s.fsm.state = .wPrep) : (sysTick s).fsm.contHint = burstHint (adapterIn s) := by
  rw [sysTick_fsm hrst]
  obtain hs | hs := hs
  · rw [fsmNow_readAck hs]
    rfl
  · rw [fsmNow_wPrep hs]
    rfl

section NoRequest
variable (we : Bool) (cti : BitVec 3) {s : State}

theorem exec_busNop : exec (.busNop we cti) s = .next (sysTick (s.putNoRequest we cti)) := rfl

theorem busRequest_putNoRequest : busRequest (adapterIn (s.putNoRequest we cti)) = false := rfl

theorem burstHint_putNoRequest : burstHint (adapterIn (s.putNoRequest we cti)) = false := rfl

theorem restTicks_putNoRequest (hrst : s.inp.rst = false) :
    RestTicks s.withExternal (sysTick (s.putNoRequest we cti)) := by
  rw [sysTick_eq (s.putNoRequest we cti) hrst]
  exact restTicks_putBus _ s _

end NoRequest

/-- Settles O24: a vector without `cyc` and `stb` is no request to `IDLE` and no hint to the two states that look for
one. -/
theorem busNopIsNoRequest : Obligations.BusNopIsNoRequest := by
  intro we cti s hrst
  refine ⟨_, exec_busNop we cti, restTicks_putNoRequest we cti hrst, fun hs => ?_, fun hs => ?_⟩
  · exact sysTick_of_quiet_rule (s := s.putNoRequest we cti) hrst
      (fsmNow_idle_of_no_request (s := s.putNoRequest we cti) hs (busRequest_putNoRequest we cti))
  · rw [sysTick_contHint_of_delivery (s := s.putNoRequest we cti) hrst hs]
    exact burstHint_putNoRequest we cti

/-! ### The cycle type -/

/-- The only test that a rule makes on the cycle type is equality with `LINEAR_BURST` (`30_encoding.md` R87). -/
theorem fsmRule_cti_irrelevant {p : Params} {x : Phy} {f : Fsm} {cti cti' : BitVec 3}
    (h : (cti == linearBurst) = (cti' == linearBurst)) (b : BusIn) :
    fsmRule p { b with cti := cti } x f = fsmRule p { b with cti := cti' } x f := by
  have hhint : burstHint { b with cti := cti } = burstHint { b with cti := cti' } := by simp only [burstHint, h]
  cases hs : f.state
  case readAck => rw [fsmRule_readAck hs, fsmRule_readAck hs, ruleReadAck, ruleReadAck, hhint]
  case wPrep => rw [fsmRule_wPrep hs, fsmRule_wPrep hs, ruleWPrep, ruleWPrep, hhint]
  case idle => rw [fsmRule_idle hs, fsmRule_idle hs]; rfl
  all_goals exact fsmRule_bus_irrelevant (by simp [hs]) (by simp [hs]) (by simp [hs]) _ _

/-- The reserved codes fail the test as `CLASSIC` does (`30_encoding.md` R86). -/
theorem reserved_cti_not_linearBurst :
    ∀ cti ∈ [0b001#3, 0b011#3, 0b100#3, 0b101#3, 0b110#3], (cti == linearBurst) = (0b000#3 == linearBurst) := by
  decide

/-- Settles O27: the two operations differ in the cycle type alone, and a reserved one is no `LINEAR_BURST` either. -/
theorem reservedCycleTypesAreClassic : Obligations.ReservedCycleTypesAreClassic := by
  intro i j we cti o s hi hcti hj
  exact ⟨_, _, exec_of_requestOf hi s, exec_of_requestOf hj s, sysTick_putBus_agree
    (fsmRule_cti_irrelevant (reserved_cti_not_linearBurst cti hcti) ⟨true, true, we, o.sel, o.adr, o.datW, cti⟩)⟩

/-! ### The acknowledgment -/

/-- The states with `ack` = 1 (`42_protocol_fsm.md` R162): two deliver a word, the third forces the acknowledgment. -/
theorem ackOf_iff {y : FsmState} : ackOf y = true ↔ (y = .readAck ∨ y = .wPrep) ∨ y = .timeout := by
  cases y <;> decide

section Rules
variable {p : Params} {b : BusIn} {x : Phy} {f : Fsm}

/-- An acknowledgment state is left at once, and for a state without acknowledgment (`44_bus_adapter.md` R198). -/
theorem ackOf_nextFsmState_of_ackOf (h : ackOf f.state = true) : ackOf (nextFsmState p b x f) = false := by
  obtain (hs | hs) | hs := ackOf_iff.mp h <;> simp only [nextFsmState, hs, ackOf]

theorem fsmRule_burstCnt_of_delivery (hs : f.state = .readAck ∨ f.state = .wPrep) :
    (fsmRule p b x f).fsm.burstCnt = f.burstCnt + 1 := by
  obtain hs | hs := hs
  · rw [fsmRule_readAck hs]
    rfl
  · rw [fsmRule_wPrep hs]
    rfl

/-- Where no word is delivered the word counter is kept or cleared (`43_burst_timeout_supervisor.md` R180). -/
theorem fsmRule_burstCnt_of_no_delivery (hread : f.state ≠ .readAck) (hprep : f.state ≠ .wPrep) :
    (fsmRule p b x f).fsm.burstCnt = f.burstCnt ∨ (fsmRule p b x f).fsm.burstCnt = 0 := by
  cases hs : f.state
  case readAck => exact absurd hs hread
  case wPrep => exact absurd hs hprep
  all_goals
    simp only [fsmRule, hs, ruleIdle, ruleCmd, ruleRwdsWait, ruleReadStart, ruleReadBurst, ruleLatencyWrite,
      ruleWriteBurst, ruleWriteFinish, ruleTimeout, ruleCleanup, waitForStrobe]
    (repeat' split) <;> simp

/-- The counter tells a delivery from every other tick: below its width's end, one more is neither the same nor 0. -/
theorem fsmRule_burstCnt_eq_add_one_iff (hle : f.burstCnt.toNat ≤ 512) :
    (fsmRule p b x f).fsm.burstCnt = f.burstCnt + 1 ↔ f.state = .readAck ∨ f.state = .wPrep := by
  refine ⟨fun hcount => ?_, fsmRule_burstCnt_of_delivery⟩
  by_contra hnone
  obtain ⟨hread, hprep⟩ := not_or.mp hnone
  obtain hkept | hcleared := fsmRule_burstCnt_of_no_delivery (p := p) (b := b) (x := x) hread hprep
  · rw [hkept] at hcount
    bv_omega
  · rw [hcleared] at hcount
    bv_omega

end Rules

section Tick
variable {s : State} (hrst : s.inp.rst = false)
include hrst

theorem sysTick_state : (sysTick s).fsm.state = nextFsmState s.params (adapterIn s) s.phy s.fsm := by
  rw [sysTick_fsm hrst, ← fsmRule_state]
  rfl

theorem sysTick_burstCnt : (sysTick s).fsm.burstCnt = (fsmRule s.params (adapterIn s) s.phy s.fsm).fsm.burstCnt := by
  rw [sysTick_fsm hrst]
  rfl

theorem ackNow_sysTick_of_ackNow (h : ackNow s = true) : ackNow (sysTick s) = false := by
  rw [ackNow, sysTick_state hrst]
  exact ackOf_nextFsmState_of_ackOf h

theorem ackNow_iff_counts_or_timeout (hle : s.fsm.burstCnt.toNat ≤ 512) :
    ackNow s = true ↔ (sysTick s).fsm.burstCnt = s.fsm.burstCnt + 1 ∨ s.fsm.state = .timeout := by
  rw [sysTick_burstCnt hrst, fsmRule_burstCnt_eq_add_one_iff hle, ackNow, ackOf_iff]

end Tick

/-- Settles O28: the transition table leaves the acknowledgment states at once, and the word counter moves up by one in
the two of them that deliver a word and nowhere else. -/
theorem acknowledgmentsAreSingleCycles : Obligations.AcknowledgmentsAreSingleCycles := fun _ hrst hle =>
  ⟨ackNow_sysTick_of_ackNow hrst, ackNow_iff_counts_or_timeout hrst hle⟩

end Sys2Proof.Machine

/-! SUPPORT. The register surface and the start of an engine: what an access and the `start` input add to the tick of the
same cycle without them (`45_dma_engines.md` R212 to R227, R250). -/

namespace Sys2Proof.Machine

/-! ### The writes of an access, beside the engine's other rules -/

/-- What a register access writes of itself, but for the `reset` pulse: the configuration registers and the `enabled`
latch (`45_dma_engines.md` R212 to R216, R224). `engTick_eq` has it as the first stage of the engine's tick. -/
def engAccess (a : Option CsrAccess) (g : Engine) : Engine :=
  engEnable (enablePulse a) (engConfigure a g)

section Stages
variable (a : Option CsrAccess) (g : Engine)

theorem engAccess_of_no_write (h : ∀ idx ∈ [0, 1, 2, 4], csrWrites a idx = false) : engAccess a g = g := by
  rw [engAccess, engConfigure_of_no_write g (h 0 (by decide)) (h 1 (by decide)) (h 2 (by decide)), enablePulse,
    h 4 (by decide)]
  rfl

/-- The other rules of the tick write none of an access's registers. -/
theorem engStart_engAccess (ok : Bool) : engStart ok (engAccess a g) = engAccess a (engStart ok g) := by
  unfold engAccess engEnable
  cases ok <;> split <;> rfl

theorem engOpen_engAccess (opens : Bool) : engOpen opens (engAccess a g) = engAccess a (engOpen opens g) := by
  unfold engAccess engEnable
  cases opens <;> split <;> rfl

theorem engCountTransfer_engAccess (last : Bool) (before : Engine) :
    engCountTransfer last before (engAccess a g) = engAccess a (engCountTransfer last before g) := by
  unfold engAccess engEnable
  cases last <;> split <;> rfl

theorem engCountBurst_engAccess (last : Bool) (before : Engine) :
    engCountBurst last before (engAccess a g) = engAccess a (engCountBurst last before g) := by
  unfold engAccess engEnable
  cases last <;> split <;> rfl

theorem engAcknowledge_engAccess (acked : Bool) (before : Engine) :
    engAcknowledge acked before (engAccess a g) = engAccess a (engAcknowledge acked before g) := by
  cases acked
  · rfl
  · simp only [engAcknowledge, if_true, engCountTransfer_engAccess, engCountBurst_engAccess]

end Stages

section EngTick
variable {extSync : Bool} {l l' : EngIn} {g : Engine} (acked partnerOk : Bool)

/-- The tick of an engine as R250 orders it, the access's own writes being the first stage. -/
theorem engTick_eq :
    engTick extSync l acked partnerOk g =
      engAbort (resetPulse l.csr) (engAcknowledge (engActive g && acked) g
        (engOpen (!engActive g && g.busy && partnerOk) (engStart (startOk extSync l g) (engAccess l.csr g)))) := rfl

/-- When a start takes effect (`45_dma_engines.md` R220 to R223, R225). -/
theorem startOk_iff :
    startOk extSync l g = true ↔ startEvent extSync l g = true ∧ g.busy = false ∧ g.transferSize ≠ 0 ∧
      g.burstSize ≠ 0 := by
  simp [startOk, and_assoc]

/-- A start event that takes no effect counts as none (`45_dma_engines.md` R223, R225). -/
theorem startOk_congr (h : startEvent extSync l g = startEvent extSync l' g ∨ g.busy = true ∨ g.transferSize = 0 ∨
    g.burstSize = 0) : startOk extSync l g = startOk extSync l' g := by
  obtain h | h | h | h := h <;> simp [startOk, h]

/-- An access that makes no difference to the start, and is no `reset`, makes its own writes and nothing else. -/
theorem engTick_access (hreset : resetPulse l.csr = false)
    (hstart : startOk extSync l g = startOk extSync { l with csr := none } g) :
    engTick extSync l acked partnerOk g =
      engAccess l.csr (engTick extSync { l with csr := none } acked partnerOk g) := by
  rw [engTick_eq, engTick_eq, hreset, hstart, engStart_engAccess, engOpen_engAccess, engAcknowledge_engAccess]
  rfl

/-- An engine that starts is neither busy nor active before the tick: it opens no burst and counts no word in it. -/
theorem engTick_of_start (hreset : resetPulse l.csr = false) (hstart : startOk extSync l g = true)
    (hidle : g.est = .idle) : engTick extSync l acked partnerOk g = engStart true (engAccess l.csr g) := by
  obtain ⟨-, hbusy, -, -⟩ := startOk_iff.mp hstart
  have hactive : engActive g = false := by simp [engActive, hidle]
  rw [engTick_eq, hreset, hstart, hactive, hbusy]
  rfl

/-- Of its lines an engine's tick looks at the access and at the start. -/
theorem engTick_congr (hcsr : l.csr = l'.csr) (hstart : startOk extSync l g = startOk extSync l' g) :
    engTick extSync l acked partnerOk g = engTick extSync l' acked partnerOk g := by
  rw [engTick_eq, engTick_eq, hcsr, hstart]

end EngTick

/-! ### A cycle with other lines of one engine -/

theorem AgreeBut.agreeRegisters {e : EngineId} {s t : State} (h : AgreeBut e s t) (he : s.engine e = t.engine e) :
    AgreeRegisters s t := by
  have hall : ∀ d, s.engine d = t.engine d := fun d =>
    if hd : d = e then hd ▸ he else h.other d hd
  exact ⟨h.params, h.fsm, h.phy, hall .writer, hall .reader, h.queues, h.crossings, h.devMem, h.free, h.tapMoved,
    h.script⟩

section Lines
variable {s : State} {e : EngineId} {l : EngIn}

theorem sysTick_engine (hrst : s.inp.rst = false) (d : EngineId) : (sysTick s).engine d = engineAfter s d :=
  sysTickCalling_engine _ hrst d

/-- An engine's register surface and its `start` input reach its own registers alone: no other component looks at
them. -/
theorem agreeBut_sysTick_setEngIn (hrst : s.inp.rst = false) (hl : l.partner = (s.inp.eng e).partner) :
    AgreeBut e (sysTick (s.setEngIn e l)) (sysTick s) := by
  obtain ⟨csr, start, partner⟩ := l
  obtain rfl : partner = (s.inp.eng e).partner := hl
  rw [sysTick_eq s hrst, sysTick_eq _ (by rwa [setEngIn_inp_rst])]
  cases e
  · exact ⟨rfl, rfl, rfl, fun | .writer, hd => absurd rfl hd | .reader, _ => rfl, rfl, rfl, rfl, rfl, rfl, rfl⟩
  · exact ⟨rfl, rfl, rfl, fun | .reader, hd => absurd rfl hd | .writer, _ => rfl, rfl, rfl, rfl, rfl, rfl, rfl⟩

theorem engineAfter_setEngIn (hl : l.partner = (s.inp.eng e).partner) :
    engineAfter (s.setEngIn e l) e =
      engTick (extSyncOf s.params e) l (ackTo s e) (partnerLevel s e) (s.engine e) := by
  obtain ⟨csr, start, partner⟩ := l
  obtain rfl : partner = (s.inp.eng e).partner := hl
  cases e <;> rfl

end Lines

/-! ### A cycle with a register access -/

/-- The operation of a register access is the tick with the access on the engine's surface. -/
theorem exec_of_accessOf {i : Instr} {e : EngineId} {a : CsrAccess} (h : accessOf i = some (e, a)) (s : State) :
    exec i s = .next (sysTick (s.putCsr e a)) := by
  cases i <;> cases h <;> rfl

section PutCsr
variable {s : State} {e : EngineId} {a : CsrAccess}

theorem putCsr_withoutCsr : (s.withoutCsr e).putCsr e a = s.putCsr e a := by
  cases e <;> rfl

theorem engineAfter_putCsr :
    engineAfter (s.putCsr e a) e =
      engTick (extSyncOf s.params e) { s.inp.eng e with csr := some a } (ackTo s e) (partnerLevel s e) (s.engine e) :=
  engineAfter_setEngIn rfl

theorem engineAfter_withoutCsr :
    engineAfter (s.withoutCsr e) e =
      engTick (extSyncOf s.params e) { s.inp.eng e with csr := none } (ackTo s e) (partnerLevel s e) (s.engine e) :=
  engineAfter_setEngIn rfl

variable (hrst : s.inp.rst = false)
include hrst

theorem withoutCsr_inp_rst : (s.withoutCsr e).inp.rst = false := by
  rw [State.withoutCsr, setEngIn_inp_rst, hrst]

theorem putCsr_rst : (s.putCsr e a).inp.rst = false := by
  rw [putCsr_inp_rst, hrst]

/-- A register access reaches its engine's registers alone. -/
theorem agreeBut_sysTick_putCsr : AgreeBut e (sysTick (s.putCsr e a)) (sysTick (s.withoutCsr e)) := by
  rw [← putCsr_withoutCsr]
  exact agreeBut_sysTick_setEngIn (withoutCsr_inp_rst hrst) rfl

/-- An access that makes no difference to the start, and is no `reset`, makes its own writes and nothing else. -/
theorem sysTick_putCsr_engine (hreset : resetPulse (some a) = false)
    (hstart : startOk (extSyncOf s.params e) { s.inp.eng e with csr := some a } (s.engine e) =
      startOk (extSyncOf s.params e) { s.inp.eng e with csr := none } (s.engine e)) :
    (sysTick (s.putCsr e a)).engine e = engAccess (some a) ((sysTick (s.withoutCsr e)).engine e) := by
  rw [sysTick_engine (putCsr_rst hrst), sysTick_engine (withoutCsr_inp_rst hrst), engineAfter_putCsr,
    engineAfter_withoutCsr]
  exact engTick_access _ _ hreset hstart

/-- An access without a pulse is no start event, whatever `EXT_SYNC` is. -/
theorem sysTick_putCsr_engine_of_no_pulse (henable : enablePulse (some a) = false)
    (hreset : resetPulse (some a) = false) :
    (sysTick (s.putCsr e a)).engine e = engAccess (some a) ((sysTick (s.withoutCsr e)).engine e) :=
  sysTick_putCsr_engine hrst hreset <| startOk_congr <| .inl <| by
    simp only [startEvent, henable]
    rfl

/-- An access that writes nothing changes nothing (`45_dma_engines.md` R215, R218, R219). -/
theorem agreeRegisters_sysTick_putCsr (h : ∀ idx ∈ [0, 1, 2, 4, 5], csrWrites (some a) idx = false) :
    AgreeRegisters (sysTick (s.putCsr e a)) (sysTick (s.withoutCsr e)) := by
  refine (agreeBut_sysTick_putCsr hrst).agreeRegisters ?_
  rw [sysTick_putCsr_engine_of_no_pulse hrst (h 4 (by decide)) (h 5 (by decide))]
  exact engAccess_of_no_write _ _ fun idx hidx => h idx (List.mem_append_left [5] hidx)

/-- What the surface shows of a read (`45_dma_engines.md` R218). -/
theorem sysTick_putCsr_csrData (hread : a.wr = false) :
    ((sysTick (s.putCsr e a)).out.eng e).csrData = csrReadValue (s.engine e) a.idx := by
  have hshow : ((outputsNow (s.putCsr e a)).eng e).csrData = csrResult (s.putCsr e a) e := by cases e <;> rfl
  have hengine : (s.putCsr e a).engine e = s.engine e := by cases e <;> rfl
  rw [sysTick_out (putCsr_rst hrst), hshow, csrResult, putCsr_inp_eng, hengine]
  simp [hread]

/-- A register read answers the register's value and changes nothing (`45_dma_engines.md` R218). -/
theorem exists_next_of_read {i : Instr} {idx : BitVec 3} {w : Word} (hi : accessOf i = some (e, ⟨false, idx, 0⟩))
    (hw : csrReadValue (s.engine e) idx = w) :
    ∃ t, exec i s = .next t ∧ (t.out.eng e).csrData = w ∧ AgreeRegisters t (sysTick (s.withoutCsr e)) :=
  ⟨_, exec_of_accessOf hi s, (sysTick_putCsr_csrData hrst rfl).trans hw,
    agreeRegisters_sysTick_putCsr hrst fun _ _ => rfl⟩

end PutCsr

/-- Settles O35: a configuration write is an access without a pulse, which makes its own write and nothing else. -/
theorem configurationWrites : Obligations.ConfigurationWrites := by
  intro e v s hrst
  refine ⟨_, _, _, exec_of_accessOf rfl s, exec_of_accessOf rfl s, exec_of_accessOf rfl s,
    sysTick_putCsr_engine_of_no_pulse hrst rfl rfl, sysTick_putCsr_engine_of_no_pulse hrst rfl rfl,
    sysTick_putCsr_engine_of_no_pulse hrst rfl rfl, ?_⟩
  simp only [List.forall_mem_cons]
  exact ⟨agreeBut_sysTick_putCsr hrst, agreeBut_sysTick_putCsr hrst, agreeBut_sysTick_putCsr hrst,
    List.forall_mem_nil _⟩

/-- Settles O36: neither index is one of those whose write reaches a register. -/
theorem ignoredRegisterWrites : Obligations.IgnoredRegisterWrites := by
  intro e v idx s hidx hrst
  have hwritten : ∀ k ∈ [3, idx], ∀ r ∈ [0, 1, 2, 4, 5], csrWrites (some ⟨true, k, v⟩) r = false := by
    obtain rfl | rfl := hidx <;> simp [csrWrites]
  exact ⟨_, _, exec_of_accessOf rfl s, exec_of_accessOf rfl s,
    agreeRegisters_sysTick_putCsr hrst (hwritten 3 (by simp)),
    agreeRegisters_sysTick_putCsr hrst (hwritten idx (by simp))⟩

/-- Settles O37: a read is an access that writes nothing, and the surface shows the register of its index. -/
theorem registerReads : Obligations.RegisterReads := by
  intro e idx s hidx hrst
  have hdone : csrReadValue (s.engine e) 3 = if (s.engine e).done then 1 else 0 := by
    cases hd : (s.engine e).done <;> simp [csrReadValue, hd]
  have hundef : csrReadValue (s.engine e) idx = 0 := by obtain rfl | rfl := hidx <;> rfl
  simp only [List.forall_mem_cons]
  exact ⟨exists_next_of_read hrst rfl rfl, exists_next_of_read hrst rfl rfl, exists_next_of_read hrst rfl rfl,
    exists_next_of_read hrst rfl hdone, exists_next_of_read hrst rfl rfl, exists_next_of_read hrst rfl rfl,
    exists_next_of_read hrst rfl hundef, List.forall_mem_nil _⟩

/-! ### `enable`, `start` and `reset` -/

theorem engineAfter_putStart {s : State} {e : EngineId} :
    engineAfter (s.putStart e) e =
      engTick (extSyncOf s.params e) { s.inp.eng e with start := true } (ackTo s e) (partnerLevel s e) (s.engine e) :=
  engineAfter_setEngIn rfl

section Pulses
variable {s : State} {e : EngineId} (hrst : s.inp.rst = false)
include hrst

/-- The pulse of `enable` is the start event without external synchronisation (`45_dma_engines.md` R220, R222). -/
theorem sysTick_enable_starts (w : Word) (hext : extSyncOf s.params e = false) (hbusy : (s.engine e).busy = false)
    (hidle : (s.engine e).est = .idle) (htransfer : (s.engine e).transferSize ≠ 0)
    (hburst : (s.engine e).burstSize ≠ 0) :
    (sysTick (s.putCsr e ⟨true, 4, w⟩)).engine e =
      { s.engine e with enabled := true, busy := true, wordCnt := 0, bwordCnt := 0 } := by
  rw [sysTick_engine (putCsr_rst hrst), engineAfter_putCsr, hext]
  exact engTick_of_start _ _ rfl (startOk_iff.mpr ⟨rfl, hbusy, htransfer, hburst⟩) hidle

/-- A pulse of `enable` that starts nothing sets the latch (`45_dma_engines.md` R216, R223 to R225). -/
theorem sysTick_enable_latches (w : Word) (hno : extSyncOf s.params e = true ∨ (s.engine e).busy = true ∨
    (s.engine e).transferSize = 0 ∨ (s.engine e).burstSize = 0) :
    (sysTick (s.putCsr e ⟨true, 4, w⟩)).engine e =
      { (sysTick (s.withoutCsr e)).engine e with enabled := true } := by
  refine sysTick_putCsr_engine hrst rfl (startOk_congr (hno.imp_left fun hext => ?_))
  rw [hext]
  rfl

/-- A `start` that is not honoured counts as none (`45_dma_engines.md` R220, R221, R223, R225). -/
theorem sysTick_putStart_of_no_start (hno : extSyncOf s.params e = false ∨ (s.engine e).enabled = false ∨
    (s.engine e).busy = true ∨ (s.engine e).transferSize = 0 ∨ (s.engine e).burstSize = 0) :
    (sysTick (s.putStart e)).engine e = (sysTick s).engine e := by
  have hevent : ∀ {x : Bool}, x = false ∨ (s.engine e).enabled = false →
      startEvent x { s.inp.eng e with start := true } (s.engine e) = startEvent x (s.inp.eng e) (s.engine e) := by
    rintro x (rfl | hlatch)
    · rfl
    · simp [startEvent, hlatch]
  rw [sysTick_engine hrst, sysTick_engine (by rwa [putStart_inp_rst])]
  rw [engineAfter_putStart]
  exact engTick_congr _ _ rfl (startOk_congr ((or_assoc.mpr hno).imp_left hevent))

/-- `start` is the start event with external synchronisation and the latch set (`45_dma_engines.md` R221, R222). -/
theorem sysTick_putStart_starts (hcsr : (s.inp.eng e).csr = none) (hext : extSyncOf s.params e = true)
    (hlatch : (s.engine e).enabled = true) (hbusy : (s.engine e).busy = false) (hidle : (s.engine e).est = .idle)
    (htransfer : (s.engine e).transferSize ≠ 0) (hburst : (s.engine e).burstSize ≠ 0) :
    (sysTick (s.putStart e)).engine e = { s.engine e with busy := true, wordCnt := 0, bwordCnt := 0 } := by
  have hevent : startEvent true { s.inp.eng e with start := true } (s.engine e) = true := by
    simp [startEvent, hlatch]
  rw [sysTick_engine (by rwa [putStart_inp_rst]), engineAfter_putStart, hext,
    engTick_of_start _ _ (by rw [hcsr]; rfl) (startOk_iff.mpr ⟨hevent, hbusy, htransfer, hburst⟩) hidle, hcsr]
  rfl

/-- The `reset` pulse has the last word in its tick (`45_dma_engines.md` R226, R250). -/
theorem sysTick_reset_engine (w : Word) :
    (sysTick (s.putCsr e ⟨true, 5, w⟩)).engine e = { s.engine e with
      busy := false, done := false, enabled := false, est := .idle, wordCnt := 0, bwordCnt := 0 } := by
  rw [sysTick_engine (putCsr_rst hrst), engineAfter_putCsr]
  exact engTick_resetPulse _ _ _ _ _ w rfl

end Pulses

/-- Settles O38: both operations are a write of `enable`, which starts the engine or sets the latch alone. -/
theorem enableStartsAnEngine : Obligations.EnableStartsAnEngine := by
  intro e v s hrst i hi
  obtain ⟨w, hw⟩ : ∃ w, accessOf i = some (e, ⟨true, 4, w⟩) := by
    obtain rfl | rfl : i = .csrWrEnable e v ∨ i = .dmaStartLocal e := by simpa using hi
    · exact ⟨v, rfl⟩
    · exact ⟨0, rfl⟩
  exact ⟨_, exec_of_accessOf hw s, agreeBut_sysTick_putCsr hrst, sysTick_enable_starts hrst w,
    sysTick_enable_latches hrst w⟩

/-- Settles O39: `start` reaches its own engine alone, and that only as a start event that takes effect. -/
theorem externalStart : Obligations.ExternalStart := by
  intro e s hrst hcsr _
  have hagree : AgreeBut e (sysTick (s.putStart e)) (sysTick s) := agreeBut_sysTick_setEngIn hrst rfl
  exact ⟨_, rfl, hagree, sysTick_putStart_starts hrst hcsr,
    fun hno => hagree.agreeRegisters (sysTick_putStart_of_no_start hrst hno)⟩

/-- Settles O40: the pulse leaves the engine idle, and an idle engine drives nothing. -/
theorem engineResetAborts : Obligations.EngineResetAborts := by
  intro e v s hrst
  have hengine := sysTick_reset_engine (e := e) hrst v
  have hactive : engActive ((sysTick (s.putCsr e ⟨true, 5, v⟩)).engine e) = false := by rw [hengine]; rfl
  refine ⟨_, exec_of_accessOf rfl s, agreeBut_sysTick_putCsr hrst, hengine, hactive, hactive, ?_, ?_⟩
  · rw [engineLevel, hactive]; rfl
  · rw [transferCompleteNow, hactive]; rfl

end Sys2Proof.Machine

/-! SUPPORT. An engine's FSM and its ports: the burst it opens and the words it counts, the request it shows to the
adapter, and that no register looks at the partner's level while it is active (`45_dma_engines.md` R230 to R245). -/

namespace Sys2Proof.Machine

/-! ### The tick of an engine's state -/

section Tick
variable {s : State} {e : EngineId}

/-- The code of the state that an engine's register holds is a plain tick (`10_state.md` R25). -/
theorem exec_of_engStateOf {i : Instr} {x : EngState} (hi : engStateOf i = some (e, x)) (hest : (s.engine e).est = x) :
    exec i s = .next (sysTick s) := by
  have hcode : exec i s = .next (sysTick (s.setEst e x)) := by cases i <;> cases hi <;> rfl
  rw [hcode, setEst_same s e x hest]

/-- An idle engine has no level on its stream (`45_dma_engines.md` R230). -/
theorem engineLevel_of_idle (hest : (s.engine e).est = .idle) : engineLevel s e = false := by
  simp [engineLevel, engActive, hest]

theorem sysTick_transferComplete (hrst : s.inp.rst = false) :
    ((sysTick s).out.eng e).transferComplete = transferCompleteNow s e := by
  rw [sysTick_out hrst]
  cases e <;> rfl

/-- Opening a burst (`45_dma_engines.md` R230, R231). -/
theorem sysTick_engine_of_idle (hrst : s.inp.rst = false) (hcsr : (s.inp.eng e).csr = none)
    (hstart : (s.inp.eng e).start = false) (hest : (s.engine e).est = .idle) :
    (sysTick s).engine e =
      if (s.engine e).busy && partnerLevel s e then { s.engine e with est := .active, bwordCnt := 0 }
      else s.engine e := by
  rw [sysTick_engine hrst, engineAfter, engTick_idle _ _ _ _ _ hcsr hstart hest]

/-- Counting an acknowledged word (`45_dma_engines.md` R232, R234, R235). -/
theorem sysTick_engine_of_active (hrst : s.inp.rst = false) (hcsr : (s.inp.eng e).csr = none)
    (hest : (s.engine e).est = .active) (hbusy : (s.engine e).busy = true) :
    (sysTick s).engine e =
      if ackTo s e then engCountBurst (lastOfBurst (s.engine e)) (s.engine e)
        (engCountTransfer (lastOfTransfer (s.engine e)) (s.engine e) (s.engine e))
      else s.engine e := by
  rw [sysTick_engine hrst, engineAfter, engTick_active _ _ _ _ _ hcsr hest hbusy]

end Tick

/-- Settles O43: the two cases of an idle engine's tick. -/
theorem idleEngineOpensABurst : Obligations.IdleEngineOpensABurst := by
  intro e s hrst hcsr hstart hest
  have hactive : engActive (s.engine e) = false := by rw [engActive, hest]; rfl
  have hengine := sysTick_engine_of_idle hrst hcsr hstart hest
  refine ⟨_, exec_of_engStateOf rfl hest, rfl, hactive, hactive, engineLevel_of_idle hest, fun hbusy hpartner => ?opens,
    fun hno => ?stays⟩
  case opens => rw [hengine, if_pos (by rw [hbusy, hpartner]; rfl)]
  case stays => rw [hengine, if_neg (by obtain h | h := hno <;> simp [h])]

/-! ### The words of a burst and of a transfer (`45_dma_engines.md` R233) -/

section Words
variable {g : Engine}

theorem lastOfTransfer_of_eq (h : g.wordCnt = g.transferSize - 1) : lastOfTransfer g = true :=
  beq_iff_eq.mpr h

theorem lastOfTransfer_of_ne (h : g.wordCnt ≠ g.transferSize - 1) : lastOfTransfer g = false :=
  beq_eq_false_iff_ne.mpr h

/-- The transfer's last word is the last one of its burst. -/
theorem lastOfBurst_of_lastOfTransfer (h : lastOfTransfer g = true) : lastOfBurst g = true := by
  rw [lastOfBurst, h]; rfl

theorem lastOfBurst_of_eq (h : g.bwordCnt = g.burstSize - 1) : lastOfBurst g = true := by
  rw [lastOfBurst, beq_iff_eq.mpr h, Bool.or_true]

theorem lastOfBurst_of_ne (ht : g.wordCnt ≠ g.transferSize - 1) (hb : g.bwordCnt ≠ g.burstSize - 1) :
    lastOfBurst g = false := by
  rw [lastOfBurst, lastOfTransfer_of_ne ht, beq_eq_false_iff_ne.mpr hb]; rfl

end Words

/-- Settles O44: an acknowledged word is the transfer's last one, the burst's last one, or an inner one. -/
theorem activeEngineCountsWords : Obligations.ActiveEngineCountsWords := by
  intro e s hrst hcsr hest hbusy
  have hengine := sysTick_engine_of_active hrst hcsr hest hbusy
  have hincomplete : ¬ (ackTo s e = true ∧ (s.engine e).wordCnt = (s.engine e).transferSize - 1) →
      ((sysTick s).out.eng e).transferComplete = false := fun hno => by
    rw [sysTick_transferComplete hrst, Bool.eq_false_iff, Ne, transferCompleteNow_iff]
    exact fun h => hno h.2
  refine ⟨_, exec_of_engStateOf rfl hest, rfl, fun hack => ?waits, fun hack hlast => ?completes,
    fun hack hmore hlast => ?ends, fun hack hmore hinner => ?counts⟩
  case waits => exact ⟨by simp [hengine, hack], hincomplete (by simp [hack])⟩
  case completes =>
    have ht := lastOfTransfer_of_eq hlast
    rw [sysTick_transferComplete hrst, hengine, if_pos hack, lastOfBurst_of_lastOfTransfer ht, ht]
    exact ⟨(transferCompleteNow_iff s e).mpr ⟨hest, hack, hlast⟩, rfl⟩
  case ends =>
    rw [hengine, if_pos hack, lastOfBurst_of_eq hlast, lastOfTransfer_of_ne hmore]
    exact ⟨hincomplete fun h => hmore h.2, rfl⟩
  case counts =>
    rw [hengine, if_pos hack, lastOfBurst_of_ne hmore hinner, lastOfTransfer_of_ne hmore]
    exact ⟨hincomplete fun h => hmore h.2, rfl⟩

/-! ### The request of an active engine -/

/-- The engine's address as a sum of word numbers (`45_dma_engines.md` R237). -/
theorem engineAdr_eq (g : Engine) :
    engineAdr g = (((g.startAddress >>> 2).toNat + g.wordCnt.toNat : Nat) : BitVec 32) := by
  have hword : (g.startAddress.extractLsb' 2 30).setWidth 32 = g.startAddress >>> 2 := by
    have hlt := g.startAddress.isLt
    apply BitVec.eq_of_toNat_eq
    simp only [BitVec.toNat_setWidth, BitVec.extractLsb'_toNat, BitVec.toNat_ushiftRight, Nat.shiftRight_eq_div_pow]
    omega
  apply BitVec.eq_of_toNat_eq
  rw [engineAdr, hword, BitVec.toNat_add]
  rfl

section Request
variable {s : State} {e : EngineId}

/-- The adapter's lines are those of the engine that the arbiter connects (`20_memory.md` R68). -/
theorem adapterIn_of_grant (hgrant : s.inp.grant = .engine e) : adapterIn s = engineBus s e := by
  rw [adapterIn, hgrant]

theorem busRequest_engineBus (hest : (s.engine e).est = .active) : busRequest (engineBus s e) = true := by
  simp [busRequest, engineBus, engActive, hest]

/-- The hint goes with every word but a burst's last (`45_dma_engines.md` R239). -/
theorem burstHint_engineBus (hest : (s.engine e).est = .active) :
    burstHint (engineBus s e) = !lastOfBurst (s.engine e) := by
  cases hlast : lastOfBurst (s.engine e) <;>
    simp [burstHint, engineBus, engActive, hest, hlast, linearBurst, endOfBurst]

/-- An engine selects all four bytes: no beat of its word is masked (`45_dma_engines.md` R238). -/
theorem not_engineBus_sel : ~~~(engineBus s e).sel = 0 := by
  have hsel : (engineBus s e).sel = 0b1111 := rfl
  rw [hsel]
  decide

end Request

/-- Settles O45: the granted engine's lines are the adapter's, which `IDLE` takes as a request and the two delivering
states look at for the hint and the word. -/
theorem engineRequestIsServed : Obligations.EngineRequestIsServed := by
  intro e s hrst hgrant hest
  have hlines := adapterIn_of_grant hgrant
  refine ⟨fun hs => ?opens, fun hs => ?hint, fun hs he => ?word⟩
  case opens =>
    have hreq : busRequest (adapterIn s) = true := hlines ▸ busRequest_engineBus hest
    obtain ⟨-, hfsm, -⟩ := sysTick_opens_window hrst hs hreq
    rw [hfsm, hlines, ← engineAdr_eq]
    exact ⟨rfl, rfl⟩
  case hint =>
    rw [sysTick_contHint_of_delivery hrst hs, hlines, burstHint_engineBus hest]
    rfl
  case word =>
    subst he
    have hword := sysTick_wPrep_queuedWord hrst hs
    rwa [hlines, not_engineBus_sel] at hword

/-! ### The partner's level while the engine is active -/

/-- An active engine does not look at its partner's level (`45_dma_engines.md` R231, R245). -/
theorem engTick_of_active_partner (extSync acked p p' : Bool) (l : EngIn) {g : Engine} (h : g.est = .active) :
    engTick extSync l acked p g = engTick extSync l acked p' g := by
  have hactive : engActive g = true := by rw [engActive, h]; rfl
  rw [engTick_eq, engTick_eq, hactive]
  rfl

section PutPartner
variable {s : State} {e : EngineId} {on : Bool} {data : Word}

/-- An operation's partner takes the place of what an earlier one put on the port. -/
theorem putPartner_putPartner (on' : Bool) (data' : Word) :
    (s.putPartner e on' data').putPartner e on data = s.putPartner e on data := by
  cases e <;> rfl

theorem engineAfter_putPartner_of_ne {d : EngineId} (h : d ≠ e) :
    engineAfter (s.putPartner e on data) d = engineAfter s d := by
  match d, e with
  | .writer, .reader => rfl
  | .reader, .writer => rfl
  | .writer, .writer => exact absurd rfl h
  | .reader, .reader => exact absurd rfl h

theorem engineAfter_putPartner_of_active (h : (s.engine e).est = .active) (d : EngineId) :
    engineAfter (s.putPartner e on data) d = engineAfter s d := by
  by_cases hd : d = e
  · subst hd
    refine Eq.trans ?_ (engTick_of_active_partner _ _ on (partnerLevel s d) (s.inp.eng d) h)
    cases d <;> rfl
  · exact engineAfter_putPartner_of_ne hd

/-- Of a partner the adapter sees the reader's write data alone (`45_dma_engines.md` R240). -/
theorem adapterIn_putPartner (hdata : e = .writer ∨ sinkDataIn s = data) :
    adapterIn (s.putPartner e on data) = adapterIn s := by
  obtain rfl | rfl : e = .writer ∨ e = .reader := by cases e <;> simp
  · rfl
  · obtain h | rfl := hdata
    · cases h
    · rfl

/-- While the engine is active its partner's level reaches no register: the engine, the adapter and the queues do not look
at it. -/
theorem agreeRegisters_sysTick_putPartner (hest : (s.engine e).est = .active)
    (hdata : e = .writer ∨ sinkDataIn s = data) :
    AgreeRegisters (sysTick (s.putPartner e on data)) (sysTick s) := by
  cases hrst : s.inp.rst
  · have hrule : fsmNow (s.putPartner e on data) = fsmNow s := by
      rw [fsmNow, adapterIn_putPartner hdata, putPartner_params, putPartner_phy, putPartner_fsm, fsmNow]
    have hfsm : fsmAfter (s.putPartner e on data) = fsmAfter s := by
      rw [fsmAfter, hrule, putPartner_phy, fsmAfter]
    have hengine := engineAfter_putPartner_of_active (on := on) (data := data) hest
    rw [sysTick_eq s hrst, sysTick_eq _ (by rwa [putPartner_inp_rst]), hrule]
    cases e <;> exact ⟨rfl, hfsm, rfl, hengine .writer, hengine .reader, rfl, rfl, rfl, rfl, rfl, rfl⟩
  · rw [sysTick_reset s hrst, sysTick_reset _ (by rwa [putPartner_inp_rst])]
    cases e <;> exact ⟨rfl, rfl, rfl, rfl, rfl, rfl, rfl, rfl, rfl, rfl, rfl⟩

/-- Two levels with the same data leave the same registers of an active engine and of everything else. -/
theorem agreeRegisters_sysTick_putPartner_level (hest : (s.engine e).est = .active) (on' : Bool) :
    AgreeRegisters (sysTick (s.putPartner e on data)) (sysTick (s.putPartner e on' data)) := by
  rw [← putPartner_putPartner on' data]
  refine agreeRegisters_sysTick_putPartner (by rwa [putPartner_engine]) ?_
  cases e
  · exact .inl rfl
  · exact .inr rfl

end PutPartner

/-- Settles O47: the four codes differ in the partner's level alone. -/
theorem diagnosticsChangeNothing : Obligations.DiagnosticsChangeNothing := by
  intro e data s hest i hi
  obtain ⟨on, hon⟩ : ∃ on, exec i s = .next (sysTick (s.putPartner e on data)) := by
    obtain rfl | rfl | rfl | rfl : i = .strmXfer e data ∨ i = .strmOverflow e data ∨ i = .strmUnderflow e data ∨
      i = .strmIdle e data := by simpa using hi
    all_goals exact ⟨_, rfl⟩
  exact ⟨_, _, hon, exec_strmXfer e data s, agreeRegisters_sysTick_putPartner_level hest true,
    agreeRegisters_sysTick_putPartner hest⟩

end Sys2Proof.Machine

/-! SUPPORT. The pulse crossing: what an operation on either end leaves, and the pulse that one flip of the toggle makes
(`46_cdc_queue.md` R272 to R274). -/

namespace Sys2Proof.Machine

/-! ### The two ends' ticks without reset -/

section Ends
variable {s : State} {x : Nat} {c : Crossing}

theorem crossingSourceTick_run (pulse : Bool) (c : Crossing) :
    crossingSourceTick false pulse c = { c with tgl := if pulse then !c.tgl else c.tgl } := by
  cases pulse <;> rfl

theorem crossingDestTick_run (stretch : Nat) (c : Crossing) :
    crossingDestTick false stretch c =
      { c with
        t1 := c.tgl, t2 := c.t1, t3 := c.t2
        stretchCnt := if c.t2 ≠ c.t3 then stretch else c.stretchCnt - 1 } := by
  have hedge : crossingEdge c = true ↔ c.t2 ≠ c.t3 := bne_iff_ne
  rw [crossingDestTick, if_neg (by decide), stretchNext, if_congr hedge rfl rfl]

theorem crossingSourceStep_source (pulse : Bool) (hc : s.crossings[x]? = some c) (hside : c.sysSide = .source) :
    crossingSourceStep x pulse s = .next (sysTick (s.putPulse x pulse)) := by
  simp only [crossingSourceStep, hc, hside]

theorem crossingSourceStep_dest (pulse : Bool) (hc : s.crossings[x]? = some c) (hside : c.sysSide = .dest) :
    crossingSourceStep x pulse s = .next (domainTick c.farDomain (s.putFarPulse x pulse)) := by
  simp only [crossingSourceStep, hc, hside]

theorem crossingDestStep_dest (hc : s.crossings[x]? = some c) (hside : c.sysSide = .dest) :
    crossingDestStep x s = .next (sysTick s) := by
  simp only [crossingDestStep, hc, hside]

theorem crossingDestStep_source (hc : s.crossings[x]? = some c) (hside : c.sysSide = .source) :
    crossingDestStep x s = .next (domainTick c.farDomain s) := by
  simp only [crossingDestStep, hc, hside]

/-- What `PULSE.SEND` answers: the source end has made its tick, in `sys` or with its own domain. -/
theorem exec_pulseSend_crossing (pulse : Bool) (hc : s.crossings[x]? = some c) (hrst : s.inp.rst = false)
    (hfar : (crossLines s x).farRst = false) :
    ∃ t, exec (.pulseSend x pulse) s = .next t ∧ t.crossings[x]? = some (crossingSourceTick false pulse c) ∧
      (c.sysSide = .source → t = sysTick (s.putPulse x pulse)) := by
  cases hside : c.sysSide
  case source =>
    refine ⟨_, crossingSourceStep_source pulse hc hside, ?_, fun _ => rfl⟩
    rw [sysTick_crossing, putPulse_crossings, hc, Option.map_some, crossingSysTick, hside, putPulse_inp_rst, hrst,
      crossLines_putPulse_same]
  case dest =>
    refine ⟨_, crossingSourceStep_dest pulse hc hside, ?_, nofun⟩
    rw [domainTick_crossing, putFarPulse_crossings, hc, Option.map_some, if_pos rfl, crossingFarTick, hside,
      crossLines_putFarPulse_same, hfar]

/-- What `PULSE.SYNC` answers: the destination end has made its tick, in `sys` or with its own domain. -/
theorem exec_pulseSync_crossing (hc : s.crossings[x]? = some c) (hrst : s.inp.rst = false)
    (hfar : (crossLines s x).farRst = false) :
    ∃ u, exec (.pulseSync x) s = .next u ∧
      u.crossings[x]? = some (crossingDestTick false s.params.resetStretch c) ∧
      (c.sysSide = .dest → u = sysTick s) := by
  cases hside : c.sysSide
  case dest =>
    refine ⟨_, crossingDestStep_dest hc hside, ?_, fun _ => rfl⟩
    rw [sysTick_crossing, hc, Option.map_some, crossingSysTick, hside, hrst]
  case source =>
    refine ⟨_, crossingDestStep_source hc hside, ?_, nofun⟩
    rw [domainTick_crossing, hc, Option.map_some, if_pos rfl, crossingFarTick, hside, hfar]

/-- `pulse_in` of a crossing reaches that crossing alone. -/
theorem sysTick_putPulse_frame (pulse : Bool) (hrst : s.inp.rst = false) :
    AgreeCore (sysTick (s.putPulse x pulse)) (sysTick s) ∧ (sysTick (s.putPulse x pulse)).queues = (sysTick s).queues ∧
      ∀ y, y ≠ x → (sysTick (s.putPulse x pulse)).crossings[y]? = (sysTick s).crossings[y]? := by
  refine ⟨?core, ?queues, fun y hy => ?others⟩
  case core =>
    rw [sysTick_eq s hrst, sysTick_eq _ (by rwa [putPulse_inp_rst])]
    exact ⟨rfl, rfl, rfl, rfl, rfl, rfl, rfl, rfl, rfl⟩
  case queues =>
    rw [sysTick_queues, sysTick_queues]
    rfl
  case others =>
    have htick : crossingSysTick (s.putPulse x pulse) y = crossingSysTick s y := by
      funext d
      rw [crossingSysTick, crossingSysTick, crossLines_putPulse_ne s x y pulse hy, putPulse_inp_rst, putPulse_params]
    rw [sysTick_crossing, sysTick_crossing, putPulse_crossings, htick]

end Ends

/-- Settles O56: each operation is the tick of its end, and `pulse_in` reaches no other register. -/
theorem pulseCrossingTicks : Obligations.PulseCrossingTicks := by
  intro x pulse s c hc hrst hfar
  obtain ⟨t, hsend, ht, htsys⟩ := exec_pulseSend_crossing pulse hc hrst hfar
  obtain ⟨u, hsync, hu, husys⟩ := exec_pulseSync_crossing hc hrst hfar
  refine ⟨t, u, hsend, hsync, ?_, ?_, husys, fun hside => ?_⟩
  · rw [ht, crossingSourceTick_run]
  · rw [hu, crossingDestTick_run]
  · rw [htsys hside]
    exact sysTick_putPulse_frame pulse hrst

/-! ### The pulse of one flip -/

/-- With no edge on the way the stretcher counts down to 0 and stays there. -/
theorem destTicks_stretchCnt_of_settled {stretch : Nat} {c : Crossing} (n : Nat) (h1 : c.tgl = c.t1) (h2 : c.t1 = c.t2)
    (h3 : c.t2 = c.t3) : (destTicks stretch n c).stretchCnt = c.stretchCnt - n := by
  induction n generalizing c with
  | zero => rfl
  | succ k ih =>
    have hcnt : (crossingDestTick false stretch c).stretchCnt = c.stretchCnt - 1 := by
      rw [crossingDestTick_run]
      exact if_neg (not_not.mpr h3)
    rw [destTicks, ih rfl h1 h2, hcnt, Nat.sub_sub, Nat.add_comm 1 k]

/-- A flip is three ticks on its way to the stretcher, which the third one loads. -/
theorem destTicks_three_of_flip {stretch : Nat} {c : Crossing} (h12 : c.t1 = c.t2) (h23 : c.t2 = c.t3)
    (htgl : c.tgl = !c.t3) (hcnt : c.stretchCnt = 0) :
    (destTicks stretch 1 c).stretchCnt = 0 ∧ (destTicks stretch 2 c).stretchCnt = 0 ∧
      destTicks stretch 3 c = { c with t1 := !c.t3, t2 := !c.t3, t3 := !c.t3, stretchCnt := stretch } := by
  simp [destTicks, crossingDestTick_run, h12, h23, htgl, hcnt]

/-- Settles O57: nothing for the three ticks of the edge's way, and from there a countdown without a further edge. -/
theorem pulseIsStretched : Obligations.PulseIsStretched := by
  intro stretch n c h12 h23 htgl hcnt
  obtain ⟨hone, htwo, hthree⟩ := destTicks_three_of_flip (stretch := stretch) h12 h23 htgl hcnt
  rw [pulseOut, decide_eq_decide]
  match n with
  | 0 => rw [destTicks]; omega
  | 1 => omega
  | 2 => omega
  | k + 3 =>
    have hlate : (destTicks stretch (k + 3) c).stretchCnt = stretch - k := by
      change (destTicks stretch k (destTicks stretch 3 c)).stretchCnt = _
      rw [hthree]
      exact destTicks_stretchCnt_of_settled k htgl rfl rfl
    omega

end Sys2Proof.Machine

/-! SUPPORT. The tick of a foreign domain: what it moves, what it leaves, and that the lines an operation puts on one far
end are seen by that end alone (`00_scope.md` R5, R6, `46_cdc_queue.md` R261). -/

namespace Sys2Proof.Machine

/-! ### The frame of a foreign tick -/

section Domain
variable {d : Domain} {s : State} {n : Nat}

theorem queueFarIn_of_queue {q : Queue} (hq : s.queues[n]? = some q) : queueFarIn q.cfg.farDomain s n = true := by
  simp [queueFarIn, hq]

/-- A foreign tick keeps a queue whose far side is in another domain. -/
theorem domainTick_queue_of_not_farIn (h : queueFarIn d s n = false) : (domainTick d s).queues[n]? = s.queues[n]? := by
  rw [domainTick_queue]
  cases hq : s.queues[n]? with
  | none => rfl
  | some q =>
    have hne : q.cfg.farDomain ≠ d := by simpa [queueFarIn, hq] using h
    rw [Option.map_some, if_neg hne]

/-- A foreign tick keeps a crossing whose far end is in another domain. -/
theorem domainTick_crossing_of_not_farIn (h : crossingFarIn d s n = false) :
    (domainTick d s).crossings[n]? = s.crossings[n]? := by
  rw [domainTick_crossing]
  cases hc : s.crossings[n]? with
  | none => rfl
  | some c =>
    have hne : c.farDomain ≠ d := by simpa [crossingFarIn, hc] using h
    rw [Option.map_some, if_neg hne]

/-- Of a queue's lines a foreign tick changes none of the `sys` side. -/
theorem queueLines_domainTick_sys (d : Domain) (s : State) (m : Nat) :
    (queueLines (domainTick d s) m).rst = (queueLines s m).rst ∧
      (queueLines (domainTick d s) m).link = (queueLines s m).link := by
  rw [queueLines_domainTick]
  split <;> exact ⟨rfl, rfl⟩

/-- Of a crossing's lines a foreign tick changes none but the far pulse. -/
theorem crossLines_domainTick_sys (d : Domain) (s : State) (m : Nat) :
    (crossLines (domainTick d s) m).pulse = (crossLines s m).pulse ∧
      (crossLines (domainTick d s) m).farRst = (crossLines s m).farRst := by
  rw [crossLines_domainTick]
  split <;> exact ⟨rfl, rfl⟩

/-- Everything a foreign tick leaves as it is. -/
theorem domainFrame_domainTick (d : Domain) (s : State) : DomainFrame d s (domainTick d s) where
  core := ⟨rfl, rfl, rfl, rfl, rfl, rfl, rfl, rfl, rfl⟩
  out := rfl
  queues _ := domainTick_queue_of_not_farIn
  crossings _ := domainTick_crossing_of_not_farIn
  lines := rfl
  sysLines := queueLines_domainTick_sys d s
  farLines m hm := by rw [queueLines_domainTick, if_neg (by simp [hm])]
  pulseLines := crossLines_domainTick_sys d s

/-- A queue in the domain has made its far side's tick. -/
theorem queueMoved_domainTick (d : Domain) (s : State) (m : Nat) : QueueMoved d m s (domainTick d s) := by
  intro q hq hd
  rw [domainTick_queue, hq, Option.map_some, if_pos hd]

/-- A crossing in the domain has made its far end's tick. -/
theorem crossingMoved_domainTick (d : Domain) (s : State) (m : Nat) : CrossingMoved d m s (domainTick d s) := by
  intro c hc hd
  rw [domainTick_crossing, hc, Option.map_some, if_pos hd]

end Domain

/-! ### The lines that an operation puts on one far end -/

section FarLines
variable {d : Domain} {s : State} {n : Nat}

theorem queueLines_putFarQueue_sys (s : State) (n m : Nat) (l : FarIn) :
    (queueLines (s.putFarQueue n l) m).rst = (queueLines s m).rst ∧
      (queueLines (s.putFarQueue n l) m).link = (queueLines s m).link := by
  by_cases hm : m = n
  · subst hm
    rw [queueLines_putFarQueue_same]
    exact ⟨rfl, rfl⟩
  · rw [queueLines_putFarQueue_ne s n m l hm]
    exact ⟨rfl, rfl⟩

theorem crossLines_putFarPulse_sys (s : State) (x y : Nat) (pulse : Bool) :
    (crossLines (s.putFarPulse x pulse) y).pulse = (crossLines s y).pulse ∧
      (crossLines (s.putFarPulse x pulse) y).farRst = (crossLines s y).farRst := by
  by_cases hy : y = x
  · subst hy
    rw [crossLines_putFarPulse_same]
    exact ⟨rfl, rfl⟩
  · rw [crossLines_putFarPulse_ne s x y pulse hy]
    exact ⟨rfl, rfl⟩

/-- The lines put on a far side belong to the domain whose tick it is: they are outside the frame. -/
theorem domainFrame_putFarQueue (l : FarIn) (hn : queueFarIn d s n = true) :
    DomainFrame d s (domainTick d (s.putFarQueue n l)) where
  core := ⟨rfl, rfl, rfl, rfl, rfl, rfl, rfl, rfl, rfl⟩
  out := rfl
  queues := (domainFrame_domainTick d (s.putFarQueue n l)).queues
  crossings := (domainFrame_domainTick d (s.putFarQueue n l)).crossings
  lines := rfl
  sysLines m := by
    obtain ⟨hrst, hlink⟩ := queueLines_domainTick_sys d (s.putFarQueue n l) m
    obtain ⟨hrst', hlink'⟩ := queueLines_putFarQueue_sys s n m l
    exact ⟨hrst.trans hrst', hlink.trans hlink'⟩
  farLines m hm := by
    have hne : m ≠ n := fun he => by rw [he, hn] at hm; cases hm
    rw [(domainFrame_domainTick d (s.putFarQueue n l)).farLines m hm, queueLines_putFarQueue_ne s n m l hne]
  pulseLines := (domainFrame_domainTick d (s.putFarQueue n l)).pulseLines

/-- The pulse put on a far end is outside the frame. -/
theorem domainFrame_putFarPulse (pulse : Bool) : DomainFrame d s (domainTick d (s.putFarPulse n pulse)) where
  core := ⟨rfl, rfl, rfl, rfl, rfl, rfl, rfl, rfl, rfl⟩
  out := rfl
  queues := (domainFrame_domainTick d (s.putFarPulse n pulse)).queues
  crossings := (domainFrame_domainTick d (s.putFarPulse n pulse)).crossings
  lines := rfl
  sysLines := (domainFrame_domainTick d (s.putFarPulse n pulse)).sysLines
  farLines := (domainFrame_domainTick d (s.putFarPulse n pulse)).farLines
  pulseLines m := by
    obtain ⟨hpulse, hrst⟩ := crossLines_domainTick_sys d (s.putFarPulse n pulse) m
    obtain ⟨hpulse', hrst'⟩ := crossLines_putFarPulse_sys s n m pulse
    exact ⟨hpulse.trans hpulse', hrst.trans hrst'⟩

/-- The lines put on one far side are no other queue's. -/
theorem queueMoved_putFarQueue_ne (l : FarIn) {m : Nat} (hm : m ≠ n) :
    QueueMoved d m s (domainTick d (s.putFarQueue n l)) := by
  intro q hq hd
  rw [queueMoved_domainTick d (s.putFarQueue n l) m q hq hd, queueFarTick, queueFarTick,
    queueLines_putFarQueue_ne s n m l hm]

/-- The pulse put on one far end is no other crossing's. -/
theorem crossingMoved_putFarPulse_ne (pulse : Bool) {y : Nat} (hy : y ≠ n) :
    CrossingMoved d y s (domainTick d (s.putFarPulse n pulse)) := by
  intro c hc hd
  rw [crossingMoved_domainTick d (s.putFarPulse n pulse) y c hc hd, crossingFarTick, crossingFarTick,
    crossLines_putFarPulse_ne s n y pulse hy, putFarPulse_params]

/-- What an operation on the far side of a queue moves and what it leaves. -/
theorem domainTick_putFarQueue_frame {q : Queue} (l : FarIn) (hq : s.queues[n]? = some q) (hd : q.cfg.farDomain = d) :
    DomainFrame d s (domainTick d (s.putFarQueue n l)) ∧
      (∀ m, m ≠ n → QueueMoved d m s (domainTick d (s.putFarQueue n l))) ∧
      ∀ y, CrossingMoved d y s (domainTick d (s.putFarQueue n l)) :=
  ⟨domainFrame_putFarQueue l (hd ▸ queueFarIn_of_queue hq), fun _ hm => queueMoved_putFarQueue_ne l hm,
    crossingMoved_domainTick d (s.putFarQueue n l)⟩

end FarLines

/-! ### The operations of a far end -/

section Operations
variable {n data : Nat} {valid ready : Bool} {s t : State} {i : Instr}

theorem queueWriteStep_write {q : Queue} (rst valid : Bool) (data : Nat) (hq : s.queues[n]? = some q)
    (hside : q.cfg.sysSide = .write) :
    queueWriteStep n rst valid data s = .next (sysTick (s.putQueue n rst (.lines valid false data))) := by
  simp only [queueWriteStep, hq, hside]

theorem queueWriteStep_read {q : Queue} (rst valid : Bool) (data : Nat) (hq : s.queues[n]? = some q)
    (hside : q.cfg.sysSide = .read) :
    queueWriteStep n rst valid data s =
      .next (domainTick q.cfg.farDomain (s.putFarQueue n ⟨rst, valid, false, data⟩)) := by
  simp only [queueWriteStep, hq, hside]

theorem queueReadStep_read {q : Queue} (rst ready : Bool) (hq : s.queues[n]? = some q) (hside : q.cfg.sysSide = .read) :
    queueReadStep n rst ready s = .next (sysTick (s.putQueue n rst (.lines false ready 0))) := by
  simp only [queueReadStep, hq, hside]

theorem queueReadStep_write {q : Queue} (rst ready : Bool) (hq : s.queues[n]? = some q)
    (hside : q.cfg.sysSide = .write) :
    queueReadStep n rst ready s =
      .next (domainTick q.cfg.farDomain (s.putFarQueue n ⟨rst, false, ready, 0⟩)) := by
  simp only [queueReadStep, hq, hside]

/-- Each `CDCW` operation is a tick of its queue's write side. -/
theorem queueWriteStep_of_cdcw
    (hi : i ∈ [Instr.cdcwReset n valid ready data, .cdcwPush n data, .cdcwStall n data, .cdcwIdle n ready data]) :
    ∃ rst offer, exec i s = queueWriteStep n rst offer data s := by
  simp only [List.mem_cons, List.not_mem_nil, or_false] at hi
  obtain rfl | rfl | rfl | rfl := hi
  · exact ⟨true, valid, rfl⟩
  · exact ⟨false, true, rfl⟩
  · exact ⟨false, true, rfl⟩
  · exact ⟨false, false, rfl⟩

/-- Each `CDCR` operation is a tick of its queue's read side. -/
theorem queueReadStep_of_cdcr
    (hi : i ∈ [Instr.cdcrReset n valid ready, .cdcrPop n, .cdcrWait n, .cdcrEmpty n ready]) :
    ∃ rst take, exec i s = queueReadStep n rst take s := by
  simp only [List.mem_cons, List.not_mem_nil, or_false] at hi
  obtain rfl | rfl | rfl | rfl := hi
  · exact ⟨true, ready, rfl⟩
  · exact ⟨false, true, rfl⟩
  · exact ⟨false, false, rfl⟩
  · exact ⟨false, ready, rfl⟩

end Operations

/-- Settles O51: an operation on a far end is the tick of that end's domain, with lines that only this end sees. -/
theorem foreignTicksTouchTheirDomain : Obligations.ForeignTicksTouchTheirDomain := by
  constructor
  · rintro n data valid ready s t q hq (⟨hside, i, hi, hexec⟩ | ⟨hside, i, hi, hexec⟩)
    · obtain ⟨rst, offer, hstep⟩ := queueWriteStep_of_cdcw (s := s) hi
      rw [hstep, queueWriteStep_read rst offer data hq hside] at hexec
      cases hexec
      exact domainTick_putFarQueue_frame _ hq rfl
    · obtain ⟨rst, take, hstep⟩ := queueReadStep_of_cdcr (s := s) hi
      rw [hstep, queueReadStep_write rst take hq hside] at hexec
      cases hexec
      exact domainTick_putFarQueue_frame _ hq rfl
  · rintro x pulse s t c hc (⟨hside, hexec⟩ | ⟨hside, hexec⟩)
    · cases (crossingSourceStep_dest pulse hc hside).symm.trans hexec
      exact ⟨domainFrame_putFarPulse pulse, queueMoved_domainTick _ (s.putFarPulse x pulse),
        fun _ hy => crossingMoved_putFarPulse_ne pulse hy⟩
    · cases (crossingDestStep_source hc hside).symm.trans hexec
      exact ⟨domainFrame_domainTick _ s, queueMoved_domainTick _ s, fun y _ => crossingMoved_domainTick _ s y⟩

end Sys2Proof.Machine

/-! SUPPORT. The two sides of a queue: a running tick of each side, by the rules or with free values, the reset of a side,
and what an operation on a side leaves of the queue and of the rest of the machine (`46_cdc_queue.md` R261 to R270). -/

namespace Sys2Proof.Machine

/-! ### A running tick of one side -/

section Sides
variable {q : Queue}

/-- A write-side tick that goes by the rules and takes nothing (`46_cdc_queue.md` R262, R265). -/
theorem queueWriteTick_of_no_push {valid : Bool} (data : Nat) (htrust : writeTrusted q.flush = true)
    (hpush : pushes valid q = false) :
    queueWriteTick false valid data q =
      { q with
        rptrW2 := q.rptrW1, rptrW1 := q.rptr, accepted := false, flush := { q.flush with wIn := false } } := by
  have hpush' : pushes valid (outOfWriteReset q) = false := hpush
  rw [queueWriteTick, if_neg (by decide), releaseWrite_of_trusted q htrust, writeRunTick, hpush']
  rfl

/-- A write-side tick that goes by the rules and takes the payload: entry and pointer are written together
(`46_cdc_queue.md` R262, R265). -/
theorem queueWriteTick_of_push {valid : Bool} (data : Nat) (htrust : writeTrusted q.flush = true)
    (hpush : pushes valid q = true) :
    queueWriteTick false valid data q =
      { q with
        rptrW2 := q.rptrW1, rptrW1 := q.rptr, accepted := true, wptr := (q.wptr + 1) % pointerModulus q
        flush := { q.flush with wIn := false }
        mem := cellWrite q.mem (q.wptr % queueDepth q) (data % 2 ^ q.cfg.width) } := by
  have hpush' : pushes valid (outOfWriteReset q) = true := hpush
  rw [queueWriteTick, if_neg (by decide), releaseWrite_of_trusted q htrust, writeRunTick, hpush']
  rfl

/-- A read-side tick that goes by the rules and takes nothing (`46_cdc_queue.md` R262, R270). -/
theorem queueReadTick_of_no_pop {ready : Bool} (htrust : readTrusted q.flush = true) (hpop : pops ready q = false) :
    queueReadTick false ready q =
      { q with wptrR2 := q.wptrR1, wptrR1 := q.wptr, popped := none, flush := { q.flush with rIn := false } } := by
  have hpop' : pops ready (outOfReadReset q) = false := hpop
  rw [queueReadTick, if_neg (by decide), releaseRead_of_trusted q htrust, readRunTick, hpop']
  rfl

/-- A read-side tick that goes by the rules and takes the head entry (`46_cdc_queue.md` R262, R270). -/
theorem queueReadTick_of_pop {ready : Bool} (htrust : readTrusted q.flush = true) (hpop : pops ready q = true) :
    queueReadTick false ready q =
      { q with
        wptrR2 := q.wptrR1, wptrR1 := q.wptr, rptr := (q.rptr + 1) % pointerModulus q, popped := some (headEntry q)
        flush := { q.flush with rIn := false } } := by
  have hpop' : pops ready (outOfReadReset q) = true := hpop
  rw [queueReadTick, if_neg (by decide), releaseRead_of_trusted q htrust, readRunTick, hpop']
  rfl

/-- A write-side tick that nothing vouches for leaves the queue unspecified (`46_cdc_queue.md` R269). -/
theorem queueWriteTick_of_untrusted (valid : Bool) (data : Nat) (h : writeTrusted q.flush = false) :
    (queueWriteTick false valid data q).generation = q.generation + 1 ∧
      (queueWriteTick false valid data q).flush = { q.flush with wIn := false, both := false, unclean := true } := by
  rw [queueWriteTick, if_neg (by decide), releaseWrite_of_untrusted q h]
  exact ⟨rfl, rfl⟩

/-- A read-side tick that nothing vouches for leaves the queue unspecified (`46_cdc_queue.md` R269). -/
theorem queueReadTick_of_untrusted (ready : Bool) (h : readTrusted q.flush = false) :
    (queueReadTick false ready q).generation = q.generation + 1 ∧
      (queueReadTick false ready q).flush = { q.flush with rIn := false, both := false, unclean := true } := by
  rw [queueReadTick, if_neg (by decide), releaseRead_of_untrusted q h]
  exact ⟨rfl, rfl⟩

theorem pushes_offer_of_room (h : levelW q ≠ queueDepth q) : pushes true q = true := by
  rw [pushes, hasRoom, Bool.true_and, bne_iff_ne]
  exact h

theorem pushes_of_full (valid : Bool) (h : levelW q = queueDepth q) : pushes valid q = false := by
  simp [pushes, hasRoom, h]

theorem pops_ready_of_entry (h : q.rptr ≠ q.wptrR2) : pops true q = true := by
  rw [pops, hasEntry, Bool.and_true, bne_iff_ne]
  exact h

theorem pops_of_empty (ready : Bool) (h : q.rptr = q.wptrR2) : pops ready q = false := by
  simp [pops, hasEntry, h]

theorem pops_not_ready (q : Queue) : pops false q = false := Bool.and_false _

end Sides

/-! ### What an operation on one side leaves of its queue -/

section Steps
variable {s : State} {n : Nat} {q : Queue}

/-- Every write-side operation answers the write side's tick on the operation's lines, in whichever domain that side is
(`46_cdc_queue.md` R261); the system reset is a reset of a side in `sys`. -/
theorem queueWriteStep_queue (rst valid : Bool) (data : Nat) (hq : s.queues[n]? = some q)
    (hrst : q.cfg.sysSide = .write → s.inp.rst = false ∨ rst = true) :
    ∃ t, queueWriteStep n rst valid data s = .next t ∧ t.queues[n]? = some (queueWriteTick rst valid data q) ∧
      (q.cfg.sysSide = .write → t = sysTick (s.putQueue n rst (.lines valid false data))) := by
  cases hside : q.cfg.sysSide
  case write =>
    have hsys : (s.inp.rst || rst) = rst := by obtain h | h := hrst hside <;> simp [h]
    refine ⟨_, queueWriteStep_write rst valid data hq hside, ?_, fun _ => rfl⟩
    simp only [sysTick_queue, putQueue_queues, hq, Option.map_some, queueSysTick, hside, queueSideRst, queueOffer,
      putQueue_inp_rst, queueLines_putQueue_same, hsys]
  case read =>
    refine ⟨_, queueWriteStep_read rst valid data hq hside, ?_, nofun⟩
    simp only [domainTick_queue, putFarQueue_queues, hq, Option.map_some, if_true, queueFarTick, hside,
      queueLines_putFarQueue_same]

/-- Every read-side operation answers the read side's tick on the operation's lines (`46_cdc_queue.md` R261). -/
theorem queueReadStep_queue (rst ready : Bool) (hq : s.queues[n]? = some q)
    (hrst : q.cfg.sysSide = .read → s.inp.rst = false ∨ rst = true) :
    ∃ t, queueReadStep n rst ready s = .next t ∧ t.queues[n]? = some (queueReadTick rst ready q) ∧
      (q.cfg.sysSide = .read → t = sysTick (s.putQueue n rst (.lines false ready 0))) := by
  cases hside : q.cfg.sysSide
  case read =>
    have hsys : (s.inp.rst || rst) = rst := by obtain h | h := hrst hside <;> simp [h]
    refine ⟨_, queueReadStep_read rst ready hq hside, ?_, fun _ => rfl⟩
    simp only [sysTick_queue, putQueue_queues, hq, Option.map_some, queueSysTick, hside, queueSideRst, queueTake,
      putQueue_inp_rst, queueLines_putQueue_same, hsys]
  case write =>
    refine ⟨_, queueReadStep_write rst ready hq hside, ?_, nofun⟩
    simp only [domainTick_queue, putFarQueue_queues, hq, Option.map_some, if_true, queueFarTick, hside,
      queueLines_putFarQueue_same]

end Steps

/-! ### What an operation on a side in `sys` leaves of the rest -/

section Rest
variable {s : State} {n : Nat} {rst : Bool} {link : QueueLink}

theorem queueSideRst_putQueue_same (s : State) (n : Nat) (rst : Bool) (link : QueueLink) :
    queueSideRst (s.putQueue n rst link) n = (s.inp.rst || rst) := by
  rw [queueSideRst, queueLines_putQueue_same, putQueue_inp_rst]

theorem queueSideRst_putQueue_ne {i : Nat} (h : i ≠ n) :
    queueSideRst (s.putQueue n rst link) i = queueSideRst s i := by
  rw [queueSideRst, queueSideRst, queueLines_putQueue_ne s n i rst link h, putQueue_inp_rst]

/-- An engine sees of a queue's `sys` lines the reset alone, and only where it faces the queue (`46_cdc_queue.md`
R277). -/
theorem partnerLevel_putQueue (e : EngineId)
    (h : (s.inp.eng e).partner = .queue n → (s.inp.rst || rst) = queueSideRst s n) :
    partnerLevel (s.putQueue n rst link) e = partnerLevel s e := by
  have hlines : (s.putQueue n rst link).inp.eng e = s.inp.eng e := by cases e <;> rfl
  cases hp : (s.inp.eng e).partner with
  | level on data => simp only [partnerLevel, hlines, hp]
  | queue i =>
    have hside : queueSideRst (s.putQueue n rst link) i = queueSideRst s i := by
      by_cases hi : i = n
      · subst hi
        rw [queueSideRst_putQueue_same, h hp]
      · exact queueSideRst_putQueue_ne hi
    have hready : queueSinkReady (s.putQueue n rst link) i = queueSinkReady s i := by
      simp only [queueSinkReady, hside, sysQueue, putQueue_queues]
    have hvalid : queueSourceValid (s.putQueue n rst link) i = queueSourceValid s i := by
      simp only [queueSourceValid, hside, sysQueue, putQueue_queues]
    cases e <;> simp only [partnerLevel, hlines, hp, hready, hvalid]

/-- The lines of one queue's `sys` side reach no register but the queue's and those of an engine that faces it, and
that one sees the side's reset alone; in a system reset no engine looks at them. -/
theorem agreeCore_sysTick_putQueue
    (h : s.inp.rst = false → ∀ e, (s.inp.eng e).partner = .queue n → (s.inp.rst || rst) = queueSideRst s n) :
    AgreeCore (sysTick (s.putQueue n rst link)) (sysTick s) := by
  cases hrst : s.inp.rst
  · have hengine (e : EngineId) : engineAfter (s.putQueue n rst link) e = engineAfter s e := by
      rw [engineAfter, partnerLevel_putQueue e (h hrst e), engineAfter]
      cases e <;> rfl
    rw [sysTick_eq s hrst, sysTick_eq _ (by rwa [putQueue_inp_rst])]
    exact ⟨rfl, rfl, rfl, hengine .writer, hengine .reader, rfl, rfl, rfl, rfl⟩
  · rw [sysTick_reset s hrst, sysTick_reset _ (by rwa [putQueue_inp_rst])]
    exact ⟨rfl, rfl, rfl, rfl, rfl, rfl, rfl, rfl, rfl⟩

theorem sysTick_putQueue_crossings : (sysTick (s.putQueue n rst link)).crossings = (sysTick s).crossings := by
  rw [sysTick_crossings, sysTick_crossings]
  rfl

/-- Another queue's `sys` side ticks on its own lines. -/
theorem sysTick_putQueue_queue_ne {m : Nat} (hm : m ≠ n) :
    (sysTick (s.putQueue n rst link)).queues[m]? = (sysTick s).queues[m]? := by
  have hlines := queueLines_putQueue_ne s n m rst link hm
  have hoffer : queueOffer (s.putQueue n rst link) m = queueOffer s m := by
    rw [queueOffer, queueOffer, hlines]
    rfl
  have htake : queueTake (s.putQueue n rst link) m = queueTake s m := by
    rw [queueTake, queueTake, hlines]
    rfl
  have htick : queueSysTick (s.putQueue n rst link) m = queueSysTick s m := by
    funext r
    rw [queueSysTick, queueSysTick, hoffer, htake, queueSideRst_putQueue_ne hm]
  rw [sysTick_queue, sysTick_queue, putQueue_queues, htick]

/-- The rest of `sys` after an operation on a queue's `sys` side: as in the same cycle without the operation. -/
theorem sysTick_putQueue_rest
    (h : s.inp.rst = false → ∀ e, (s.inp.eng e).partner = .queue n → (s.inp.rst || rst) = queueSideRst s n) :
    AgreeCore (sysTick (s.putQueue n rst link)) (sysTick s) ∧
      (sysTick (s.putQueue n rst link)).crossings = (sysTick s).crossings ∧
      ∀ m, m ≠ n → (sysTick (s.putQueue n rst link)).queues[m]? = (sysTick s).queues[m]? :=
  ⟨agreeCore_sysTick_putQueue h, sysTick_putQueue_crossings, fun _ hm => sysTick_putQueue_queue_ne hm⟩

/-- The same where the operation holds no reset and the side was in none. -/
theorem sysTick_putQueue_rest_of_running (hside : (queueLines s n).rst = false) :
    AgreeCore (sysTick (s.putQueue n false link)) (sysTick s) ∧
      (sysTick (s.putQueue n false link)).crossings = (sysTick s).crossings ∧
      ∀ m, m ≠ n → (sysTick (s.putQueue n false link)).queues[m]? = (sysTick s).queues[m]? :=
  sysTick_putQueue_rest fun _ _ _ => by rw [queueSideRst, hside]

end Rest

/-! ### The statements about one side -/

/-- Settles O48: the tick of the write side, on the lines of each operation, with room and without. That a full queue
and not the code makes a stall is the model's choice, log entry 1. -/
theorem queueWriteSideTick : Obligations.QueueWriteSideTick := by
  intro n data ready s q hq hrst
  have hrun : q.cfg.sysSide = .write → s.inp.rst = false ∨ false = true := fun h => .inl (hrst h)
  obtain ⟨t, hpush, ht, htsys⟩ := queueWriteStep_queue false true data hq hrun
  obtain ⟨v, hidle, hv, hvsys⟩ := queueWriteStep_queue false false data hq hrun
  refine ⟨t, t, v, hpush, hpush, hidle, rfl, fun htrust => ⟨?idle, fun hroom => ?taken, fun hfull => ?stalled⟩,
    fun huntrusted => ?unspecified, fun hside hlow => ?rest⟩
  case idle => rw [hv, queueWriteTick_of_no_push data htrust rfl]
  case taken =>
    rw [ht, queueWriteTick_of_push data htrust (pushes_offer_of_room hroom)]
    exact ⟨_, rfl, rfl, fun k => cellRead_cellWrite q.mem _ k _⟩
  case stalled => rw [ht, queueWriteTick_of_no_push data htrust (pushes_of_full true hfull)]
  case unspecified =>
    have hfree (valid : Bool) := queueWriteTick_of_untrusted valid data huntrusted
    simp only [List.forall_mem_cons]
    exact ⟨⟨_, ht, queueWriteTick_cfg .., hfree true⟩, ⟨_, ht, queueWriteTick_cfg .., hfree true⟩,
      ⟨_, hv, queueWriteTick_cfg .., hfree false⟩, List.forall_mem_nil _⟩
  case rest =>
    have hrest (link : QueueLink) := sysTick_putQueue_rest_of_running (link := link) hlow
    simp only [List.forall_mem_cons]
    rw [htsys hside, hvsys hside]
    exact ⟨hrest _, hrest _, hrest _, List.forall_mem_nil _⟩

/-- Settles O49: the tick of the read side, on the lines of each operation, with an entry in view and without. That the
view and not the code tells whether there is one is the model's choice, log entry 1. -/
theorem queueReadSideTick : Obligations.QueueReadSideTick := by
  intro n ready s q hq hrst
  have hrun : q.cfg.sysSide = .read → s.inp.rst = false ∨ false = true := fun h => .inl (hrst h)
  obtain ⟨t, hpop, ht, htsys⟩ := queueReadStep_queue false true hq hrun
  obtain ⟨u, hwait, hu, husys⟩ := queueReadStep_queue false false hq hrun
  obtain ⟨v, hempty, hv, hvsys⟩ := queueReadStep_queue false ready hq hrun
  refine ⟨t, u, v, hpop, hwait, hempty, fun htrust => ⟨?waits, fun hentry => ?taken, fun hnone => ?empty⟩,
    fun huntrusted => ?unspecified, fun hside hlow => ?rest⟩
  case waits => rw [hu, queueReadTick_of_no_pop htrust (pops_not_ready q)]
  case taken =>
    rw [ht, queueReadTick_of_pop htrust (pops_ready_of_entry hentry)]
    rfl
  case empty =>
    have hsame (r : Bool) := queueReadTick_of_no_pop htrust (pops_of_empty r hnone)
    rw [ht, hu, hv, hsame, hsame, hsame]
    exact ⟨rfl, rfl⟩
  case unspecified =>
    have hfree (r : Bool) := queueReadTick_of_untrusted r huntrusted
    simp only [List.forall_mem_cons]
    exact ⟨⟨_, ht, queueReadTick_cfg .., hfree true⟩, ⟨_, hu, queueReadTick_cfg .., hfree false⟩,
      ⟨_, hv, queueReadTick_cfg .., hfree ready⟩, List.forall_mem_nil _⟩
  case rest =>
    have hrest (link : QueueLink) := sysTick_putQueue_rest_of_running (link := link) hlow
    simp only [List.forall_mem_cons]
    rw [htsys hside, husys hside, hvsys hside]
    exact ⟨hrest _, hrest _, hrest _, List.forall_mem_nil _⟩

/-- Settles O50: the tick of a side in reset; an engine that faces the queue sees what it would have seen where the side
was in reset already. -/
theorem queueSideResets : Obligations.QueueSideResets := by
  intro n data valid ready s q hq
  obtain ⟨t, hw, ht, htsys⟩ := queueWriteStep_queue true valid data hq fun _ => .inr rfl
  obtain ⟨u, hr, hu, husys⟩ := queueReadStep_queue true ready hq fun _ => .inr rfl
  refine ⟨t, u, _, _, hw, hr, ht, hu, rfl, rfl, rfl, rfl, fun hfaces => ?_⟩
  have hseen : s.inp.rst = false → ∀ e, (s.inp.eng e).partner = .queue n → (s.inp.rst || true) = queueSideRst s n := by
    intro hlow e he
    obtain h | h | h := hfaces
    · rw [hlow] at h; cases h
    · rw [queueSideRst, h]
    · exact absurd he (h e)
  rintro y (⟨rfl, hside⟩ | ⟨rfl, hside⟩)
  · rw [htsys hside]
    exact sysTick_putQueue_rest hseen
  · rw [husys hside]
    exact sysTick_putQueue_rest hseen

end Sys2Proof.Machine

/-! SUPPORT. A queue over many ticks of its two sides: from a clean flush on it carries what it accepts, in order, up to
its depth; and a clean flush empties it (`46_cdc_queue.md` R268, R271). -/

namespace Sys2Proof.Machine

/-! ### Trust along a run (`46_cdc_queue.md` R268) -/

section Trust
variable {f : Flush}

theorem writeTrusted_outOfWrite (h : writeTrusted f = true) : writeTrusted { f with wIn := false } = true := by
  simp_all [writeTrusted, readMayRelease]

theorem writeTrusted_outOfRead (h : writeTrusted f = true) : writeTrusted { f with rIn := false } = true := by
  simp_all [writeTrusted, writeMayRelease]

theorem readTrusted_outOfWrite (h : readTrusted f = true) : readTrusted { f with wIn := false } = true := by
  simp_all [readTrusted, readMayRelease]

theorem readTrusted_outOfRead (h : readTrusted f = true) : readTrusted { f with rIn := false } = true := by
  simp_all [readTrusted, writeMayRelease]

/-- What lets a write side run that is still in its reset. -/
theorem mayRelease_of_writeTrusted (h : writeTrusted f = true) (hin : f.wIn = true) :
    f.both = true ∧ Config.syncStages ≤ f.wGood := by
  simp_all [writeTrusted, writeMayRelease]

/-- What lets a read side run that is still in its reset. -/
theorem mayRelease_of_readTrusted (h : readTrusted f = true) (hin : f.rIn = true) :
    f.both = true ∧ Config.syncStages ≤ f.rGood := by
  simp_all [readTrusted, readMayRelease]

theorem oneMoreTick_of_enough {k : Nat} (h : Config.syncStages ≤ k) : oneMoreTick k = Config.syncStages :=
  Nat.min_eq_left (Nat.le_succ_of_le h)

/-- A further tick of a write side in a reset that both sides are in, or have left cleanly. -/
theorem flushWriteReset_of_begun (ident : Nat) (hin : f.wIn = true) (hboth : f.both = true) :
    flushWriteReset ident f = { f with wGood := oneMoreTick f.wGood } := by
  rw [flushWriteReset, if_pos hin, if_pos hboth]

/-- The same of a read side. -/
theorem flushReadReset_of_begun (ident : Nat) (hin : f.rIn = true) (hboth : f.both = true) :
    flushReadReset ident f = { f with rGood := oneMoreTick f.rGood } := by
  rw [flushReadReset, if_pos hin, if_pos hboth]

/-- A write side that stays in a reset long enough stays trusted, and so does the read side. -/
theorem trusted_flushWriteReset (ident : Nat) (hw : writeTrusted f = true) (hr : readTrusted f = true)
    (hin : f.wIn = true) :
    (flushWriteReset ident f).wIn = f.wIn ∧ (flushWriteReset ident f).rIn = f.rIn ∧
      writeTrusted (flushWriteReset ident f) = true ∧ readTrusted (flushWriteReset ident f) = true := by
  obtain ⟨hboth, hgood⟩ := mayRelease_of_writeTrusted hw hin
  have hflush : flushWriteReset ident f = { f with wGood := Config.syncStages } := by
    rw [flushWriteReset_of_begun ident hin hboth, oneMoreTick_of_enough hgood]
  rw [hflush]
  refine ⟨rfl, rfl, ?_, ?_⟩ <;> simp_all [writeTrusted, readTrusted, writeMayRelease, readMayRelease]

/-- A read side that stays in a reset long enough stays trusted, and so does the write side. -/
theorem trusted_flushReadReset (ident : Nat) (hw : writeTrusted f = true) (hr : readTrusted f = true)
    (hin : f.rIn = true) :
    (flushReadReset ident f).wIn = f.wIn ∧ (flushReadReset ident f).rIn = f.rIn ∧
      writeTrusted (flushReadReset ident f) = true ∧ readTrusted (flushReadReset ident f) = true := by
  obtain ⟨hboth, hgood⟩ := mayRelease_of_readTrusted hr hin
  have hflush : flushReadReset ident f = { f with rGood := Config.syncStages } := by
    rw [flushReadReset_of_begun ident hin hboth, oneMoreTick_of_enough hgood]
  rw [hflush]
  refine ⟨rfl, rfl, ?_, ?_⟩ <;> simp_all [writeTrusted, readTrusted, writeMayRelease, readMayRelease]

end Trust

/-! ### What one event accepts and delivers -/

section Events
variable {q : Queue}

theorem pushesOf_cons (ev : QueueEvent) (rest : List QueueEvent) (q : Queue) :
    pushesOf (ev :: rest) q = pushesOf [ev] q ++ pushesOf rest (queueEvent ev q) := by
  cases ev with
  | write rst valid data => rw [pushesOf, pushesOf]; split <;> rfl
  | read rst ready => rfl

theorem popsOf_cons (ev : QueueEvent) (rest : List QueueEvent) (q : Queue) :
    popsOf (ev :: rest) q = popsOf [ev] q ++ popsOf rest (queueEvent ev q) := by
  cases ev with
  | write rst valid data => rfl
  | read rst ready => rw [popsOf, popsOf]; split <;> rfl

@[simp] theorem pushesOf_read (rst ready : Bool) : pushesOf [.read rst ready] q = [] := rfl
@[simp] theorem popsOf_write (rst valid : Bool) (data : Nat) : popsOf [.write rst valid data] q = [] := rfl

/-- A write side in reset accepts nothing (`46_cdc_queue.md` R266). -/
theorem pushesOf_writeReset (valid : Bool) (data : Nat) : pushesOf [.write true valid data] q = [] :=
  if_neg (by simp [sinkReady])

/-- A read side in reset delivers nothing (`46_cdc_queue.md` R267). -/
theorem popsOf_readReset (ready : Bool) : popsOf [.read true ready] q = [] :=
  if_neg (by simp [sourceValid])

theorem sinkReady_of_trusted (htrust : writeTrusted q.flush = true) : sinkReady false q = hasRoom q := by
  rw [sinkReady, releaseWrite_of_trusted q htrust]
  rfl

theorem sourceValid_of_trusted (htrust : readTrusted q.flush = true) : sourceValid false q = hasEntry q := by
  rw [sourceValid, releaseRead_of_trusted q htrust]
  rfl

theorem sourceData_of_trusted (htrust : readTrusted q.flush = true) : sourceData q = headEntry q := by
  rw [sourceData, releaseRead_of_trusted q htrust]
  rfl

/-- A running write side accepts what it pushes (`46_cdc_queue.md` R263, R265). -/
theorem pushesOf_writeRun (valid : Bool) (data : Nat) (htrust : writeTrusted q.flush = true) :
    pushesOf [.write false valid data] q = if pushes valid q then [data % 2 ^ q.cfg.width] else [] := by
  rw [pushesOf, sinkReady_of_trusted htrust]
  rfl

/-- A running read side delivers the head entry it pops (`46_cdc_queue.md` R264, R270). -/
theorem popsOf_readRun (ready : Bool) (htrust : readTrusted q.flush = true) :
    popsOf [.read false ready] q = if pops ready q then [headEntry q] else [] := by
  rw [popsOf, sourceValid_of_trusted htrust, sourceData_of_trusted htrust, Bool.and_comm]
  rfl

@[simp] theorem queueEvent_cfg (ev : QueueEvent) (q : Queue) : (queueEvent ev q).cfg = q.cfg := by
  cases ev <;> simp [queueEvent]

@[simp] theorem queueRun_cfg (evs : List QueueEvent) (q : Queue) : (queueRun evs q).cfg = q.cfg := by
  induction evs generalizing q with
  | nil => rfl
  | cons ev rest ih => rw [queueRun, ih, queueEvent_cfg]

end Events

/-! ### Pointers as counts of pushes and pops -/

/-- The distance of two pointers of a ring is the distance of their counts, while that is less than the ring. -/
theorem pointer_distance {m l : Nat} (a : Nat) (h : l < m) : ((a + l) % m + m - a % m) % m = l := by
  have ha : a % m < m := Nat.mod_lt _ (by omega)
  rw [← Nat.mod_add_mod a m l]
  obtain hlt | hge := Nat.lt_or_ge (a % m + l) m
  · rw [Nat.mod_eq_of_lt hlt, show a % m + l + m - a % m = l + m by omega, Nat.add_mod_right, Nat.mod_eq_of_lt h]
  · rw [Nat.mod_eq_sub_mod hge, Nat.mod_eq_of_lt (show a % m + l - m < m by omega),
      show a % m + l - m + m - a % m = l by omega, Nat.mod_eq_of_lt h]

theorem queueDepth_lt_pointerModulus (q : Queue) : queueDepth q < pointerModulus q := by
  have := queueDepth_pos q
  rw [pointerModulus]
  omega

/-- The write side's level, its pointer and its view of the read pointer being the counts of pushes and pops
(`46_cdc_queue.md` R263). -/
theorem levelW_of_counts {q : Queue} {seen level : Nat} (hw : q.wptr = (seen + level) % pointerModulus q)
    (hr : q.rptrW2 = seen % pointerModulus q) (h : level ≤ queueDepth q) : levelW q = level := by
  rw [levelW, hw, hr, pointer_distance seen (Nat.lt_of_le_of_lt h (queueDepth_lt_pointerModulus q))]

/-- What the synchroniser stages show, as counts: pops as the write domain sees them, pushes as the read domain does. -/
structure ViewCounts where
  read1 : Nat
  read2 : Nat
  write1 : Nat
  write2 : Nat

/-- The queue has accepted `sent` and delivered `taken`, in order: the pointers count them modulo twice the depth, each
stage shows an earlier count, the slowest view still keeps the entries under way within the depth, and each of these
entries stands where its number says (`46_cdc_queue.md` R271 (a), (b)). -/
structure Carries (q : Queue) (sent taken : List Nat) (k : ViewCounts) : Prop where
  wptr : q.wptr = sent.length % pointerModulus q
  rptr : q.rptr = taken.length % pointerModulus q
  rptrW1 : q.rptrW1 = k.read1 % pointerModulus q
  rptrW2 : q.rptrW2 = k.read2 % pointerModulus q
  wptrR1 : q.wptrR1 = k.write1 % pointerModulus q
  wptrR2 : q.wptrR2 = k.write2 % pointerModulus q
  read2_le : k.read2 ≤ k.read1
  read1_le : k.read1 ≤ taken.length
  le_write2 : taken.length ≤ k.write2
  write2_le : k.write2 ≤ k.write1
  write1_le : k.write1 ≤ sent.length
  room : sent.length ≤ k.read2 + queueDepth q
  order : taken <+: sent
  stored : ∀ i, taken.length ≤ i → i < sent.length → cellRead q.mem (i % queueDepth q) = sent[i]?

section Carries
variable {q : Queue} {sent taken : List Nat} {k : ViewCounts}

theorem carries_of_zero (hw : q.wptr = 0) (hr : q.rptr = 0) (hr1 : q.rptrW1 = 0) (hr2 : q.rptrW2 = 0)
    (hw1 : q.wptrR1 = 0) (hw2 : q.wptrR2 = 0) : Carries q [] [] ⟨0, 0, 0, 0⟩ where
  wptr := hw
  rptr := hr
  rptrW1 := by simpa using hr1
  rptrW2 := by simpa using hr2
  wptrR1 := by simpa using hw1
  wptrR2 := by simpa using hw2
  read2_le := le_rfl
  read1_le := le_rfl
  le_write2 := le_rfl
  write2_le := le_rfl
  write1_le := le_rfl
  room := Nat.zero_le _
  order := List.prefix_rfl
  stored _ _ hi := absurd hi (Nat.not_lt_zero _)

/-- What a queue carries stands in its pointers, stages and storage, and not in the bookkeeping beside them. -/
theorem Carries.congr {r : Queue} (h : Carries q sent taken k) (hcfg : r.cfg = q.cfg) (hmem : r.mem = q.mem)
    (hw : r.wptr = q.wptr) (hr : r.rptr = q.rptr) (hr1 : r.rptrW1 = q.rptrW1) (hr2 : r.rptrW2 = q.rptrW2)
    (hw1 : r.wptrR1 = q.wptrR1) (hw2 : r.wptrR2 = q.wptrR2) : Carries r sent taken k := by
  obtain ⟨⟩ := q
  obtain ⟨⟩ := r
  subst hcfg hmem hw hr hr1 hr2 hw1 hw2
  exact ⟨h.wptr, h.rptr, h.rptrW1, h.rptrW2, h.wptrR1, h.wptrR2, h.read2_le, h.read1_le, h.le_write2, h.write2_le,
    h.write1_le, h.room, h.order, h.stored⟩

/-- The write side's synchroniser moves on (`46_cdc_queue.md` R262). -/
theorem Carries.syncReadPointer (h : Carries q sent taken k) :
    Carries (syncReadPointer q) sent taken { k with read1 := taken.length, read2 := k.read1 } :=
  { h with
    rptrW1 := h.rptr
    rptrW2 := h.rptrW1
    read2_le := h.read1_le
    read1_le := le_rfl
    room := h.room.trans (Nat.add_le_add_right h.read2_le _) }

/-- The read side's synchroniser moves on (`46_cdc_queue.md` R262). -/
theorem Carries.syncWritePointer (h : Carries q sent taken k) :
    Carries (syncWritePointer q) sent taken { k with write1 := sent.length, write2 := k.write1 } :=
  { h with
    wptrR1 := h.wptr
    wptrR2 := h.wptrR1
    le_write2 := h.le_write2.trans h.write2_le
    write2_le := h.write1_le
    write1_le := le_rfl }

/-- The write side's room by its own view is room in the count. -/
theorem Carries.sent_lt_of_pushes {valid : Bool} (h : Carries q sent taken k) (hpush : pushes valid q = true) :
    sent.length < k.read2 + queueDepth q := by
  refine Nat.lt_of_le_of_ne h.room fun hfull => ?_
  have hlevel : levelW q = queueDepth q := levelW_of_counts (hfull ▸ h.wptr) h.rptrW2 le_rfl
  rw [pushes_of_full valid hlevel] at hpush
  cases hpush

/-- A push puts the payload behind what was sent (`46_cdc_queue.md` R265): the entries under way are fewer than the
depth, so that the slot it takes is none of theirs. -/
theorem Carries.push (h : Carries q sent taken k) (hroom : sent.length < k.read2 + queueDepth q) (x : Nat) :
    Carries { q with
      wptr := (q.wptr + 1) % pointerModulus q, mem := cellWrite q.mem (q.wptr % queueDepth q) x } (sent ++ [x]) taken k :=
  have hslot : q.wptr % queueDepth q = sent.length % queueDepth q := by
    rw [h.wptr, pointerModulus, Nat.mod_mul_left_mod]
  { h with
    wptr := by
      rw [List.length_append, List.length_singleton]
      change (q.wptr + 1) % pointerModulus q = _
      rw [h.wptr, Nat.mod_add_mod]
      rfl
    write1_le := by simpa using Nat.le_succ_of_le h.write1_le
    room := by
      rw [List.length_append]
      exact hroom
    order := h.order.trans (List.prefix_append _ _)
    stored := by
      intro i hi hlt
      change cellRead (cellWrite q.mem (q.wptr % queueDepth q) x) (i % queueDepth q) = _
      rw [hslot]
      have hseen := h.read2_le.trans h.read1_le
      rw [List.length_append, List.length_singleton] at hlt
      obtain hold | rfl := Nat.lt_succ_iff_lt_or_eq.mp hlt
      · have hne : i % queueDepth q ≠ sent.length % queueDepth q := fun he => by
          have hdvd := (Nat.modEq_iff_dvd' hold.le).mp he
          exact absurd (Nat.le_of_dvd (by omega) hdvd) (by omega)
        rw [cellRead_cellWrite_ne _ _ _ _ hne, List.getElem?_append_left hold, h.stored i hi hold]
      · rw [cellRead_cellWrite_same, List.getElem?_concat_length] }

/-- The read side's view of an entry is an entry under way (`46_cdc_queue.md` R264). -/
theorem Carries.taken_lt_of_pops {ready : Bool} (h : Carries q sent taken k) (hpop : pops ready q = true) :
    taken.length < k.write2 := by
  refine Nat.lt_of_le_of_ne h.le_write2 fun he => ?_
  have hempty : q.rptr = q.wptrR2 := by rw [h.rptr, h.wptrR2, he]
  rw [pops_of_empty ready hempty] at hpop
  cases hpop

/-- The head entry is the first one under way (`46_cdc_queue.md` R264). -/
theorem Carries.headEntry_eq (h : Carries q sent taken k) (hlt : taken.length < sent.length) :
    headEntry q = sent[taken.length] := by
  have hslot : q.rptr % queueDepth q = taken.length % queueDepth q := by
    rw [h.rptr, pointerModulus, Nat.mod_mul_left_mod]
  have hcell : cellRead q.mem (q.rptr % queueDepth q) = some sent[taken.length] := by
    rw [hslot, h.stored _ le_rfl hlt, List.getElem?_eq_getElem hlt]
  rw [headEntry, queueEntry, hcell]

/-- A pop delivers the first entry under way (`46_cdc_queue.md` R270). -/
theorem Carries.pop (h : Carries q sent taken k) (hentry : taken.length < k.write2) :
    Carries { q with rptr := (q.rptr + 1) % pointerModulus q } sent (taken ++ [headEntry q]) k :=
  have hsent : taken.length < sent.length := hentry.trans_le (h.write2_le.trans h.write1_le)
  { h with
    rptr := by
      rw [List.length_append, List.length_singleton]
      change (q.rptr + 1) % pointerModulus q = _
      rw [h.rptr, Nat.mod_add_mod]
      rfl
    read1_le := by simpa using Nat.le_succ_of_le h.read1_le
    le_write2 := by simpa using hentry
    order := by
      rw [h.headEntry_eq hsent]
      exact List.concat_get_prefix h.order hsent
    stored := fun i hi => h.stored i (Nat.le_of_succ_le (by simpa using hi)) }

/-- The entries under way are at most the depth (`46_cdc_queue.md` R271 (b)). -/
theorem Carries.exists_waiting (h : Carries q sent taken k) :
    ∃ waiting, sent = taken ++ waiting ∧ waiting.length ≤ queueDepth q := by
  obtain ⟨waiting, rfl⟩ := h.order
  have hroom := h.room
  have hseen := h.read2_le.trans h.read1_le
  rw [List.length_append] at hroom
  exact ⟨waiting, rfl, by omega⟩

end Carries

/-! ### A run from a clean flush on -/

/-- A queue that carries `sent` and `taken`, and that a side still in the reset of the clean flush has not begun to
use. -/
structure InService (q : Queue) (sent taken : List Nat) : Prop where
  writeTrust : writeTrusted q.flush = true
  readTrust : readTrusted q.flush = true
  writeHeld : q.flush.wIn = true → sent = []
  readHeld : q.flush.rIn = true → taken = []
  carries : ∃ k, Carries q sent taken k

section InService
variable {q : Queue} {sent taken : List Nat}

theorem InService.writeReset (h : InService q sent taken) (hin : q.flush.wIn = true) :
    InService (writeResetTick q) sent taken ∧ (writeResetTick q).flush.wIn = q.flush.wIn ∧
      (writeResetTick q).flush.rIn = q.flush.rIn := by
  obtain ⟨hwIn, hrIn, hw, hr⟩ := trusted_flushWriteReset q.cfg.ident h.writeTrust h.readTrust hin
  obtain ⟨k, hk⟩ := h.carries
  have hzero : q.wptr = 0 := by rw [hk.wptr, h.writeHeld hin]; exact Nat.zero_mod _
  exact ⟨⟨hw, hr, fun hin' => h.writeHeld (hwIn.symm.trans hin'), fun hin' => h.readHeld (hrIn.symm.trans hin'),
    _, hk.syncReadPointer.congr rfl rfl hzero.symm rfl rfl rfl rfl rfl⟩, hwIn, hrIn⟩

theorem InService.readReset (h : InService q sent taken) (hin : q.flush.rIn = true) :
    InService (readResetTick q) sent taken ∧ (readResetTick q).flush.wIn = q.flush.wIn ∧
      (readResetTick q).flush.rIn = q.flush.rIn := by
  obtain ⟨hwIn, hrIn, hw, hr⟩ := trusted_flushReadReset q.cfg.ident h.writeTrust h.readTrust hin
  obtain ⟨k, hk⟩ := h.carries
  have hzero : q.rptr = 0 := by rw [hk.rptr, h.readHeld hin]; exact Nat.zero_mod _
  exact ⟨⟨hw, hr, fun hin' => h.writeHeld (hwIn.symm.trans hin'), fun hin' => h.readHeld (hrIn.symm.trans hin'),
    _, hk.syncWritePointer.congr rfl rfl rfl hzero.symm rfl rfl rfl rfl⟩, hwIn, hrIn⟩

theorem InService.writeRun (h : InService q sent taken) (valid : Bool) (data : Nat) :
    InService (queueWriteTick false valid data q) (sent ++ pushesOf [.write false valid data] q) taken ∧
      (queueWriteTick false valid data q).flush = { q.flush with wIn := false } := by
  obtain ⟨k, hk⟩ := h.carries
  rw [pushesOf_writeRun valid data h.writeTrust]
  cases hpush : pushes valid q
  · rw [queueWriteTick_of_no_push data h.writeTrust hpush]
    exact ⟨⟨writeTrusted_outOfWrite h.writeTrust, readTrusted_outOfWrite h.readTrust, nofun, h.readHeld, _,
      ((List.append_nil sent).symm ▸ hk.syncReadPointer).congr rfl rfl rfl rfl rfl rfl rfl rfl⟩, rfl⟩
  · rw [queueWriteTick_of_push data h.writeTrust hpush]
    exact ⟨⟨writeTrusted_outOfWrite h.writeTrust, readTrusted_outOfWrite h.readTrust, nofun, h.readHeld, _,
      (hk.push (hk.sent_lt_of_pushes hpush) _).syncReadPointer.congr rfl rfl rfl rfl rfl rfl rfl rfl⟩, rfl⟩

theorem InService.readRun (h : InService q sent taken) (ready : Bool) :
    InService (queueReadTick false ready q) sent (taken ++ popsOf [.read false ready] q) ∧
      (queueReadTick false ready q).flush = { q.flush with rIn := false } := by
  obtain ⟨k, hk⟩ := h.carries
  rw [popsOf_readRun ready h.readTrust]
  cases hpop : pops ready q
  · rw [queueReadTick_of_no_pop h.readTrust hpop]
    exact ⟨⟨writeTrusted_outOfRead h.writeTrust, readTrusted_outOfRead h.readTrust, h.writeHeld, nofun, _,
      ((List.append_nil taken).symm ▸ hk.syncWritePointer).congr rfl rfl rfl rfl rfl rfl rfl rfl⟩, rfl⟩
  · rw [queueReadTick_of_pop h.readTrust hpop]
    exact ⟨⟨writeTrusted_outOfRead h.writeTrust, readTrusted_outOfRead h.readTrust, h.writeHeld, nofun, _,
      (hk.pop (hk.taken_lt_of_pops hpop)).syncWritePointer.congr rfl rfl rfl rfl rfl rfl rfl rfl⟩, rfl⟩

/-- One event of a run in which no side goes back into reset. -/
theorem InService.event {ev : QueueEvent} {rest : List QueueEvent} (h : InService q sent taken)
    (hrel : staysReleased q.flush.wIn q.flush.rIn (ev :: rest) = true) :
    InService (queueEvent ev q) (sent ++ pushesOf [ev] q) (taken ++ popsOf [ev] q) ∧
      staysReleased (queueEvent ev q).flush.wIn (queueEvent ev q).flush.rIn rest = true := by
  match ev with
  | .write true valid data =>
    obtain ⟨hin, hrest⟩ : q.flush.wIn = true ∧ staysReleased q.flush.wIn q.flush.rIn rest = true := by
      simpa [staysReleased] using hrel
    obtain ⟨hq, hw, hr⟩ := h.writeReset hin
    rw [pushesOf_writeReset, popsOf_write, List.append_nil, List.append_nil]
    refine ⟨hq, ?_⟩
    change staysReleased (writeResetTick q).flush.wIn (writeResetTick q).flush.rIn rest = true
    rwa [hw, hr]
  | .write false valid data =>
    have hrest : staysReleased false q.flush.rIn rest = true := by simpa [staysReleased] using hrel
    obtain ⟨hq, hflush⟩ := h.writeRun valid data
    rw [popsOf_write, List.append_nil, queueEvent, hflush]
    exact ⟨hq, hrest⟩
  | .read true ready =>
    obtain ⟨hin, hrest⟩ : q.flush.rIn = true ∧ staysReleased q.flush.wIn q.flush.rIn rest = true := by
      simpa [staysReleased] using hrel
    obtain ⟨hq, hw, hr⟩ := h.readReset hin
    rw [popsOf_readReset, pushesOf_read, List.append_nil, List.append_nil]
    refine ⟨hq, ?_⟩
    change staysReleased (readResetTick q).flush.wIn (readResetTick q).flush.rIn rest = true
    rwa [hw, hr]
  | .read false ready =>
    have hrest : staysReleased q.flush.wIn false rest = true := by simpa [staysReleased] using hrel
    obtain ⟨hq, hflush⟩ := h.readRun ready
    rw [pushesOf_read, List.append_nil, queueEvent, hflush]
    exact ⟨hq, hrest⟩

/-- A run in which no side goes back into reset, for every interleaving of the two clocks. -/
theorem InService.run {evs : List QueueEvent} (h : InService q sent taken)
    (hrel : staysReleased q.flush.wIn q.flush.rIn evs = true) :
    InService (queueRun evs q) (sent ++ pushesOf evs q) (taken ++ popsOf evs q) := by
  induction evs generalizing q sent taken with
  | nil => simpa [queueRun, pushesOf, popsOf] using h
  | cons ev rest ih =>
    obtain ⟨hev, hrest⟩ := h.event hrel
    rw [pushesOf_cons, popsOf_cons, ← List.append_assoc, ← List.append_assoc]
    exact ih hev hrest

end InService

/-- Settles O53: after the run the queue carries what it accepted and delivered. -/
theorem queueKeepsOrder : Obligations.QueueKeepsOrder := by
  intro q evs hw hr hr1 hr2 hw1 hw2 hwrite hread hrel
  have hstart : InService q [] [] :=
    ⟨hwrite, hread, fun _ => rfl, fun _ => rfl, _, carries_of_zero hw hr hr1 hr2 hw1 hw2⟩
  obtain ⟨k, hk⟩ := (hstart.run hrel).carries
  have hdepth : queueDepth (queueRun evs q) = queueDepth q := by rw [queueDepth, queueRun_cfg, queueDepth]
  rw [List.nil_append, List.nil_append] at hk
  rw [← hdepth]
  exact ⟨hk.exists_waiting, hk.wptr, hk.rptr⟩

/-! ### The capacity -/

/-- Offers alone, the read pointer not moving: as many more are accepted as there are free entries
(`46_cdc_queue.md` R271 (e)). -/
theorem length_pushesOf_offers {q : Queue} (data : List Nat) (hfill : q.wptr ≤ queueDepth q) (hr : q.rptr = 0)
    (hr1 : q.rptrW1 = 0) (hr2 : q.rptrW2 = 0) (htrust : writeTrusted q.flush = true) :
    (pushesOf (data.map fun d => .write false true d) q).length = min data.length (queueDepth q - q.wptr) := by
  induction data generalizing q with
  | nil => exact (Nat.zero_min _).symm
  | cons d rest ih =>
    have hlt := queueDepth_lt_pointerModulus q
    have hlevel : levelW q = q.wptr :=
      levelW_of_counts (seen := 0) (by rw [Nat.zero_add, Nat.mod_eq_of_lt (by omega)]) (by rw [hr2, Nat.zero_mod]) hfill
    have hkept := writeTrusted_outOfWrite htrust
    rw [List.map_cons, pushesOf_cons, List.length_append, pushesOf_writeRun true d htrust, queueEvent]
    obtain hfull | hroom := hfill.eq_or_lt
    · have hpush : pushes true q = false := pushes_of_full true (hlevel.trans hfull)
      rw [queueWriteTick_of_no_push d htrust hpush, hpush, ih]
      · change 0 + min rest.length (queueDepth q - q.wptr) = min (rest.length + 1) (queueDepth q - q.wptr)
        omega
      · exact hfill
      exacts [hr, hr, hr1, hkept]
    · have hpush : pushes true q = true := pushes_offer_of_room (hlevel ▸ hroom.ne)
      have hnext : (q.wptr + 1) % pointerModulus q = q.wptr + 1 := Nat.mod_eq_of_lt (by omega)
      rw [queueWriteTick_of_push d htrust hpush, hpush, hnext, ih]
      · change 1 + min rest.length (queueDepth q - (q.wptr + 1)) = min (rest.length + 1) (queueDepth q - q.wptr)
        omega
      · exact hroom
      exacts [hr, hr, hr1, hkept]

/-- Settles O54: an empty queue has all its entries free. -/
theorem queueCapacity : Obligations.QueueCapacity := by
  intro q data hw hr hr1 hr2 htrust
  rw [length_pushesOf_offers data (hw ▸ Nat.zero_le _) hr hr1 hr2 htrust, hw, Nat.sub_zero]


/-! ### A clean flush -/

section Flushing
variable {q : Queue}

/-- Induction over events that are all reset ticks, counting each side's: what a reset tick of either side passes on
holds at the end of the run, with the counts of the run. -/
theorem queueRun_resets {P : Nat → Nat → Queue → Prop}
    (hw : ∀ w r q, P w r q → P (w + 1) r (writeResetTick q)) (hr : ∀ w r q, P w r q → P w (r + 1) (readResetTick q))
    {evs : List QueueEvent} (hevs : ∀ ev ∈ evs, ev.running = false) {w r : Nat} (h : P w r q) :
    P (w + ticksOf .write evs) (r + ticksOf .read evs) (queueRun evs q) := by
  induction evs generalizing w r q with
  | nil => exact h
  | cons ev rest ih =>
    obtain ⟨hev, hrest⟩ := List.forall_mem_cons.mp hevs
    match ev with
    | .write true valid data =>
      have hcount : w + ticksOf .write (.write true valid data :: rest) = w + 1 + ticksOf .write rest :=
        Nat.add_right_comm w _ 1
      rw [hcount]
      exact ih hrest (hw w r q h)
    | .read true ready =>
      have hcount : r + ticksOf .read (.read true ready :: rest) = r + 1 + ticksOf .read rest :=
        Nat.add_right_comm r _ 1
      rw [hcount]
      exact ih hrest (hr w r q h)
    | .write false _ _ => cases hev
    | .read false _ => cases hev

/-- The instant T of a flush is still to come, or has passed and nothing unclean since (`46_cdc_queue.md` R268). -/
def FlushUnderWay (f : Flush) : Prop :=
  f.wIn = false ∨ f.rIn = false ∨ (f.both = true ∧ f.unclean = false)

/-- A write-side reset tick: the read side stays where it is, and of a flush the instant T is not missed. -/
theorem flushWriteReset_underWay (ident : Nat) {f : Flush} (h : FlushUnderWay f) :
    FlushUnderWay (flushWriteReset ident f) ∧ (flushWriteReset ident f).wIn = true ∧
      (flushWriteReset ident f).rIn = f.rIn := by
  unfold flushWriteReset
  split
  case isTrue hin => split <;> exact ⟨h, hin, rfl⟩
  case isFalse =>
    split
    case isTrue hr => exact ⟨.inr (.inr ⟨rfl, rfl⟩), rfl, hr.symm⟩
    case isFalse hr => exact ⟨.inr (.inl (Bool.eq_false_iff.mpr hr)), rfl, rfl⟩

/-- The same of a read-side reset tick. -/
theorem flushReadReset_underWay (ident : Nat) {f : Flush} (h : FlushUnderWay f) :
    FlushUnderWay (flushReadReset ident f) ∧ (flushReadReset ident f).rIn = true ∧
      (flushReadReset ident f).wIn = f.wIn := by
  unfold flushReadReset
  split
  case isTrue hin => split <;> exact ⟨h, hin, rfl⟩
  case isFalse =>
    split
    case isTrue hw => exact ⟨.inr (.inr ⟨rfl, rfl⟩), rfl, hw.symm⟩
    case isFalse hw => exact ⟨.inl (Bool.eq_false_iff.mpr hw), rfl, rfl⟩

/-- The sides have made `w` and `r` reset ticks, the first of which clears the side's pointer (`46_cdc_queue.md` R266,
R267); no free value has been drawn since generation `g`. -/
structure Clearing (g w r : Nat) (q : Queue) : Prop where
  underWay : FlushUnderWay q.flush
  write : 1 ≤ w → q.wptr = 0 ∧ q.flush.wIn = true
  read : 1 ≤ r → q.rptr = 0 ∧ q.flush.rIn = true
  generation : q.generation = g

theorem Clearing.writeReset {g w r : Nat} (h : Clearing g w r q) : Clearing g (w + 1) r (writeResetTick q) := by
  obtain ⟨hway, hw, hr⟩ := flushWriteReset_underWay q.cfg.ident h.underWay
  exact ⟨hway, fun _ => ⟨rfl, hw⟩, fun hone => (h.read hone).imp_right hr.trans, h.generation⟩

theorem Clearing.readReset {g w r : Nat} (h : Clearing g w r q) : Clearing g w (r + 1) (readResetTick q) := by
  obtain ⟨hway, hr, hw⟩ := flushReadReset_underWay q.cfg.ident h.underWay
  exact ⟨hway, fun hone => (h.write hone).imp_right hw.trans, fun _ => ⟨rfl, hr⟩, h.generation⟩

/-- Both pointers are 0 in a flush, and since then the sides have made `w` and `r` reset ticks, in which the synchronisers
bring the other side's 0 (`46_cdc_queue.md` R262, R268). -/
structure Draining (g w r : Nat) (q : Queue) : Prop where
  wptr : q.wptr = 0
  rptr : q.rptr = 0
  wIn : q.flush.wIn = true
  rIn : q.flush.rIn = true
  both : q.flush.both = true
  clean : q.flush.unclean = false
  rptrW1 : 1 ≤ w → q.rptrW1 = 0
  rptrW2 : 2 ≤ w → q.rptrW2 = 0
  wptrR1 : 1 ≤ r → q.wptrR1 = 0
  wptrR2 : 2 ≤ r → q.wptrR2 = 0
  wGood : min Config.syncStages w ≤ q.flush.wGood
  rGood : min Config.syncStages r ≤ q.flush.rGood
  generation : q.generation = g

theorem Clearing.draining {g w r : Nat} (h : Clearing g w r q) (hw : 1 ≤ w) (hr : 1 ≤ r) : Draining g 0 0 q := by
  obtain ⟨hwptr, hwIn⟩ := h.write hw
  obtain ⟨hrptr, hrIn⟩ := h.read hr
  obtain ⟨hboth, hclean⟩ : q.flush.both = true ∧ q.flush.unclean = false := by
    simpa [FlushUnderWay, hwIn, hrIn] using h.underWay
  exact ⟨hwptr, hrptr, hwIn, hrIn, hboth, hclean, nofun, nofun, nofun, nofun, Nat.zero_le _, Nat.zero_le _,
    h.generation⟩

theorem min_succ_le_oneMoreTick {k n : Nat} (h : min Config.syncStages k ≤ n) :
    min Config.syncStages (k + 1) ≤ oneMoreTick n := by
  rw [oneMoreTick]
  omega

theorem Draining.writeReset {g w r : Nat} (h : Draining g w r q) : Draining g (w + 1) r (writeResetTick q) := by
  have hflush : (writeResetTick q).flush = { q.flush with wGood := oneMoreTick q.flush.wGood } :=
    flushWriteReset_of_begun q.cfg.ident h.wIn h.both
  refine ⟨rfl, h.rptr, ?_, ?_, ?_, ?_, fun _ => h.rptr, fun htwo => h.rptrW1 (by omega), h.wptrR1, h.wptrR2, ?_, ?_,
    h.generation⟩ <;> rw [hflush]
  exacts [h.wIn, h.rIn, h.both, h.clean, min_succ_le_oneMoreTick h.wGood, h.rGood]

theorem Draining.readReset {g w r : Nat} (h : Draining g w r q) : Draining g w (r + 1) (readResetTick q) := by
  have hflush : (readResetTick q).flush = { q.flush with rGood := oneMoreTick q.flush.rGood } :=
    flushReadReset_of_begun q.cfg.ident h.rIn h.both
  refine ⟨h.wptr, rfl, ?_, ?_, ?_, ?_, h.rptrW1, h.rptrW2, fun _ => h.wptr, fun htwo => h.wptrR1 (by omega), ?_, ?_,
    h.generation⟩ <;> rw [hflush]
  exacts [h.wIn, h.rIn, h.both, h.clean, h.wGood, min_succ_le_oneMoreTick h.rGood]

/-- Two reset ticks of each side after both pointers are 0, both sides may leave their reset (`46_cdc_queue.md`
R268). -/
theorem Draining.trusted {g w r : Nat} (h : Draining g w r q) (hw : 2 ≤ w) (hr : 2 ≤ r) :
    writeTrusted q.flush = true ∧ readTrusted q.flush = true := by
  have hwGood : Config.syncStages ≤ q.flush.wGood := (Nat.min_eq_left hw).symm.trans_le h.wGood
  have hrGood : Config.syncStages ≤ q.flush.rGood := (Nat.min_eq_left hr).symm.trans_le h.rGood
  simp [writeTrusted, readTrusted, writeMayRelease, readMayRelease, h.clean, h.both, hwGood, hrGood]

/-- A trusted running tick draws no free value. -/
theorem queueWriteTick_generation_of_trusted (valid : Bool) (data : Nat) (h : writeTrusted q.flush = true) :
    (queueWriteTick false valid data q).generation = q.generation := by
  rw [queueWriteTick, if_neg (by decide), releaseWrite_of_trusted q h]
  rfl

/-- The same on the read side. -/
theorem queueReadTick_generation_of_trusted (ready : Bool) (h : readTrusted q.flush = true) :
    (queueReadTick false ready q).generation = q.generation := by
  rw [queueReadTick, if_neg (by decide), releaseRead_of_trusted q h]
  rfl

theorem queueRun_append (evs evs' : List QueueEvent) (q : Queue) :
    queueRun (evs ++ evs') q = queueRun evs' (queueRun evs q) := by
  induction evs generalizing q with
  | nil => rfl
  | cons ev rest ih => exact ih (queueEvent ev q)

/-- A flush from its beginning to its end. -/
theorem draining_of_flush {before after : List QueueEvent} (hstart : q.flush.wIn = false ∨ q.flush.rIn = false)
    (hevs : ∀ ev ∈ before ++ after, ev.running = false) (hw : 1 ≤ ticksOf .write before)
    (hr : 1 ≤ ticksOf .read before) :
    Draining q.generation (ticksOf .write after) (ticksOf .read after) (queueRun (before ++ after) q) := by
  obtain ⟨hbefore, hafter⟩ := List.forall_mem_append.mp hevs
  have hclearing : Clearing q.generation 0 0 q := ⟨hstart.imp_right .inl, nofun, nofun, rfl⟩
  have hcleared := queueRun_resets (P := Clearing q.generation) (fun _ _ _ h => h.writeReset)
    (fun _ _ _ h => h.readReset) hbefore hclearing
  rw [Nat.zero_add, Nat.zero_add] at hcleared
  have hdrained := queueRun_resets (P := Draining q.generation) (fun _ _ _ h => h.writeReset)
    (fun _ _ _ h => h.readReset) hafter (hcleared.draining hw hr)
  rwa [Nat.zero_add, Nat.zero_add, ← queueRun_append] at hdrained

end Flushing

/-- Settles O55: the pointers are cleared, the synchronisers bring the zeros over, and both sides may leave their
reset. -/
theorem cleanFlushEmptiesTheQueue : Obligations.CleanFlushEmptiesTheQueue := by
  intro q before after hstart hevs hw hr hw2 hr2
  have h := draining_of_flush hstart hevs hw hr
  generalize queueRun (before ++ after) q = p at h ⊢
  obtain ⟨hwrite, hread⟩ := h.trusted hw2 hr2
  have hlevel : levelW p = 0 :=
    levelW_of_counts (seen := 0) (h.wptr.trans (Nat.zero_mod _).symm) ((h.rptrW2 hw2).trans (Nat.zero_mod _).symm)
      (Nat.zero_le _)
  refine ⟨h.wptr, h.rptr, h.rptrW1 (by omega), h.rptrW2 hw2, h.wptrR1 (by omega), h.wptrR2 hr2, hwrite, hread, ?ready,
    ?valid, fun valid data => ?write, fun ready => ?read⟩
  case ready =>
    rw [sinkReady_of_trusted hwrite, hasRoom, hlevel, bne_iff_ne]
    exact (queueDepth_pos p).ne
  case valid =>
    rw [sourceValid_of_trusted hread, hasEntry, h.rptr, h.wptrR2 hr2]
    rfl
  case write => rw [queueWriteTick_generation_of_trusted valid data hwrite, h.generation]
  case read => rw [queueReadTick_generation_of_trusted ready hread, h.generation]

end Sys2Proof.Machine

/-! SUPPORT. The two conditions that end a window before its requester does: the timeout, from its bound over the forced
acknowledgment to `IDLE`, and the ceiling of 512 words, after which a request opens a new window (`60_exceptions.md` R290,
R293, R299, R300). -/

namespace Sys2Proof.Machine

section Cycle
variable {s : State} {l : Inputs}

/-! ### One cycle of a run, after the cycles before it -/

theorem sysCycles_two (l l' : Inputs) (s : State) : sysCycles [l, l'] s = sysCycles [l'] (sysCycles [l] s) := rfl

theorem sysCycles_three (l l' l'' : Inputs) (s : State) :
    sysCycles [l, l', l''] s = sysCycles [l''] (sysCycles [l, l'] s) := rfl

/-- A cycle whose rule makes no call, with any lines on which the rule gives `f`. -/
theorem sysCycles_of_quiet_rule {f : Fsm} (hrst : l.rst = false) (hrule : fsmNow { s with inp := l } = ⟨f, none⟩) :
    (sysCycles [l] s).devMem = s.devMem ∧ IdleWord (sysCycles [l] s).phy ∧ (sysCycles [l] s).fsm = Ticked s f :=
  sysTick_of_quiet_rule (s := { s with inp := l }) hrst hrule

/-- `IDLE` takes the external master's request as the cycle shows it (`42_protocol_fsm.md` R143). -/
theorem sysCycles_opens_external_window (hrst : l.rst = false) (hs : s.fsm.state = .idle) (hgrant : l.grant = .external)
    (hcyc : l.bus.cyc = true) (hstb : l.bus.stb = true) :
    (sysCycles [l] s).fsm = Ticked s { s.fsm with
      state := .cmd, cs := true, clkEn := true, dqOe := true, phaseCnt := 0, burstCnt := 0, contHint := false,
      ca := encodeCommand l.bus.adr l.bus.we } := by
  have hbus : adapterIn { s with inp := l } = l.bus := by simp [adapterIn, hgrant]
  have hreq : busRequest (adapterIn { s with inp := l }) = true := by simp [hbus, busRequest, hcyc, hstb]
  obtain ⟨-, hfsm, -⟩ := sysTick_opens_window (s := { s with inp := l }) hrst hs hreq
  rwa [hbus] at hfsm

/-! ### The rules under the two conditions -/

/-- ProtocolTimeout moves either waiting state to `TIMEOUT` and changes no other register but the counter
(`60_exceptions.md` R290). -/
theorem fsmNow_of_timeoutNow (h : timeoutNow s.fsm s.phy = true) : fsmNow s = ⟨enterState .timeout s.fsm, none⟩ := by
  obtain ⟨hs | hs, hbound, hq⟩ := timeoutNow_iff.mp h
  · rw [fsmNow_rwdsWait hs, if_neg (by simp [hq]), if_pos hbound]
  · rw [fsmNow_readStart hs, if_neg (by simp [hq]), if_pos hbound]

/-- A waiting state does not acknowledge, so the forced acknowledgment is the first (`42_protocol_fsm.md` R162). -/
theorem ackNow_of_timeoutNow (h : timeoutNow s.fsm s.phy = true) : ackNow s = false := by
  obtain ⟨hs | hs, -, -⟩ := timeoutNow_iff.mp h <;> rw [ackNow, hs] <;> rfl

/-- At the ceiling a read window is closed, with the strobe qualified or not (`60_exceptions.md` R293). -/
theorem fsmNow_readBurst_of_full (hs : s.fsm.state = .readBurst) (hfull : s.fsm.burstCnt.toNat = 512) :
    fsmNow s = ⟨enterState .idle (clearWindow { s.fsm with cs := false, clkEn := false }), none⟩ := by
  rw [fsmNow_readBurst hs, if_neg fun ⟨_, hroom, _⟩ => by omega]

/-- At the ceiling a write window goes to its last clock cycle (`60_exceptions.md` R293). -/
theorem fsmNow_writeBurst_of_full (hs : s.fsm.state = .writeBurst) (hfull : s.fsm.burstCnt.toNat = 512) :
    fsmNow s = ⟨enterState .writeFinish s.fsm, none⟩ := by
  rw [fsmNow_writeBurst hs, if_neg fun ⟨_, hroom⟩ => by omega]

end Cycle

/-! ### The statements about the two conditions -/

/-- Settles O19: the three ticks are those of the condition, of `TIMEOUT` and of `CLEANUP`, whose rules make no call and do
not look at the lines. -/
theorem timeoutIsDeliveredAndLeft : Obligations.TimeoutIsDeliveredAndLeft := by
  intro s l1 l2 l3 hrst1 hrst2 hrst3 hwait hbound hq
  have hcond : timeoutNow s.fsm s.phy = true := timeoutNow_iff.mpr ⟨hwait, hbound, hq⟩
  obtain ⟨hmem1, hidle1, hfsm1⟩ :=
    sysCycles_of_quiet_rule hrst1 (fsmNow_of_timeoutNow (s := { s with inp := l1 }) hcond)
  rw [sysCycles_three, sysCycles_two]
  generalize sysCycles [l1] s = s1 at hmem1 hidle1 hfsm1 ⊢
  have hs1 : s1.fsm.state = .timeout := by rw [hfsm1]; rfl
  obtain ⟨hmem2, -, hfsm2⟩ := sysCycles_of_quiet_rule (s := s1) hrst2 (fsmRule_timeout hs1)
  generalize sysCycles [l2] s1 = s2 at hmem2 hfsm2 ⊢
  have hs2 : s2.fsm.state = .cleanup := by rw [hfsm2]; rfl
  obtain ⟨hmem3, -, hfsm3⟩ := sysCycles_of_quiet_rule (s := s2) hrst3 (fsmRule_cleanup hs2)
  have hforced : ackNow s1 = true := by rw [ackNow, hs1]; rfl
  have hover : ackNow s2 = false := by rw [ackNow, hs2]; rfl
  have hcount : s2.fsm.burstCnt = s.fsm.burstCnt := by rw [hfsm2, hfsm1]; rfl
  refine ⟨hfsm1, hidle1, ackNow_of_timeoutNow hcond, hforced, hover, hs2, hcount, ?off, by rw [hmem3, hmem2, hmem1]⟩
  case off =>
    rw [hfsm3, hfsm2, hfsm1]
    rfl

/-- Settles O21: at 512 words there is no room for another, so neither burst state goes on; the read window's end is
`IDLE`, where the pending transfer is a request like any other. -/
theorem burstLimitEndsTheWindow : Obligations.BurstLimitEndsTheWindow := by
  intro s l1 l2 hrst1 hrst2 _ hfull
  rw [sysCycles_two]
  refine ⟨fun hs => ?write, fun hs => ?read⟩
  case write =>
    obtain ⟨-, -, hfsm1⟩ :=
      sysCycles_of_quiet_rule hrst1 (fsmNow_writeBurst_of_full (s := { s with inp := l1 }) hs hfull)
    have hs1 : (sysCycles [l1] s).fsm.state = .writeFinish := by rw [hfsm1]; rfl
    obtain ⟨-, -, hfsm2⟩ :=
      sysCycles_of_quiet_rule hrst2 (fsmNow_writeFinish (s := { sysCycles [l1] s with inp := l2 }) hs1)
    exact ⟨hs1, by rw [hfsm2]; rfl⟩
  case read =>
    obtain ⟨-, -, hfsm1⟩ :=
      sysCycles_of_quiet_rule hrst1 (fsmNow_readBurst_of_full (s := { s with inp := l1 }) hs hfull)
    have hs1 : (sysCycles [l1] s).fsm.state = .idle := by rw [hfsm1]; rfl
    refine ⟨hfsm1, fun hgrant hcyc hstb => ?_⟩
    rw [sysCycles_opens_external_window hrst2 hs1 hgrant hcyc hstb]
    exact ⟨rfl, rfl, rfl⟩

end Sys2Proof.Machine

/-! SUPPORT. Encoder and decoder are each other's inverse: a command word is put together again from its fields, and on
each port the decoder's table and the encoder's are one table read in two directions (`30_encoding.md` R99, R101). -/

namespace Sys2Proof.Machine

/-! ### A command word and its fields (`30_encoding.md` R81, R83) -/

section CommandWord
variable (read : Bool) (row : BitVec 19) (col : BitVec 2)

theorem reservedBitsOk_encodeCa : reservedBitsOk (encodeCa read row col) := by
  simpa [encodeCommand_rowCol] using reservedBitsOk_encodeCommand ((row ++ col).setWidth 32) (!read)

theorem isReadCommand_encodeCa : isReadCommand (encodeCa read row col) = read := by
  simpa [encodeCommand_rowCol] using isReadCommand_encodeCommand ((row ++ col).setWidth 32) (!read)

theorem decode_encodeCa :
    decode ⟨.ca, (encodeCa read row col).toNat, .none⟩ = .ok (if read then .caRd row col else .caWr row col) := by
  rw [decode_ca_of_reservedBitsOk (reservedBitsOk_encodeCa read row col), isReadCommand_encodeCa, encodeCa_row,
    encodeCa_col]

/-- A field that lies within the reserved bits has its value from them. -/
theorem field_of_reservedBitsOk {v : CommandWord} (h : reservedBitsOk v) (start len : Nat)
    (hmask : (0x7FF80000FFF9#48).extractLsb' start len = BitVec.allOnes len) :
    v.extractLsb' start len = (0x200000000000#48).extractLsb' start len := by
  rw [← h, BitVec.extractLsb'_and, hmask, BitVec.and_allOnes]

/-- A word with its reserved bits right is the command word of its direction, row and column. -/
theorem encodeCa_fields {v : CommandWord} (h : reservedBitsOk v) :
    encodeCa (isReadCommand v) (v.extractLsb' 16 19) (v.extractLsb' 1 2) = v := by
  have hdirection : BitVec.ofBool (isReadCommand v) = v.extractLsb' 47 1 := by
    refine BitVec.eq_of_getLsbD_eq fun j hj => ?_
    obtain rfl : j = 0 := by omega
    simp [isReadCommand]
  have hburst : v.extractLsb' 45 2 = 0b01#2 := field_of_reservedBitsOk h 45 2 rfl
  have hhigh : v.extractLsb' 35 10 = 0#10 := field_of_reservedBitsOk h 35 10 rfl
  have hmiddle : v.extractLsb' 3 13 = 0#13 := field_of_reservedBitsOk h 3 13 rfl
  have hlow : v.extractLsb' 0 1 = 0#1 := field_of_reservedBitsOk h 0 1 rfl
  rw [encodeCa, hdirection, ← hburst, ← hhigh, ← hmiddle, ← hlow]
  simp only [BitVec.extractLsb'_append_extractLsb'_eq_extractLsb', BitVec.extractLsb'_eq_self]

end CommandWord

/-! ### Decoding what was encoded -/

/-- Bit 3 of a code of format `BUS` is its write enable (`30_encoding.md` R85). -/
theorem testBit_three_of_div {code : Nat} {we : Bool} (h : code / 8 % 2 = we.toNat) : code.testBit 3 = we := by
  have hbit : code.testBit 3 = decide (code / 8 % 2 = 1) := Nat.testBit_eq_decide_div_mod_eq
  rw [hbit, h]
  cases we <;> rfl

theorem decodeBus_none {code : Nat} (h : code < 16) :
    decodeBus code .none = .ok (.busNop (code.testBit 3) (BitVec.ofNat 3 code)) := by
  rw [decodeBus, if_neg (by omega), if_pos h]

theorem decodeBus_bus {code : Nat} (hlow : 16 ≤ code) (hhigh : code < 32) (o : BusOperands) :
    decodeBus code (.bus o) = decodeBusRequest (code.testBit 3) (code % 8) o := by
  rw [decodeBus, if_neg (by omega), if_neg (by omega)]

/-- The code of `BUS.NOP` is its write enable above its cycle type. -/
theorem decode_encode_busNop (we : Bool) (cti : BitVec 3) :
    decode (encode (.busNop we cti)) = .ok (.busNop we cti) := by
  have hcti : cti.toNat < 8 := cti.isLt
  have hwe : we.toNat ≤ 1 := we.toNat_le
  have hbit : (8 * we.toNat + cti.toNat).testBit 3 = we := testBit_three_of_div (by omega)
  have hlow : BitVec.ofNat 3 (8 * we.toNat + cti.toNat) = cti :=
    BitVec.eq_of_toNat_eq (by rw [BitVec.toNat_ofNat]; omega)
  calc decode (encode (.busNop we cti))
      = decodeBus (8 * we.toNat + cti.toNat) .none := rfl
    _ = .ok (.busNop we cti) := by rw [decodeBus_none (by omega), hbit, hlow]

/-- The code of a request is 16, its write enable and its cycle type. -/
theorem decode_busRequest (we : Bool) (cti : BitVec 3) (o : BusOperands) :
    decode ⟨.bus, 16 + 8 * we.toNat + cti.toNat, .bus o⟩ = decodeBusRequest we cti.toNat o := by
  have hcti : cti.toNat < 8 := cti.isLt
  have hwe : we.toNat ≤ 1 := we.toNat_le
  have hbit : (16 + 8 * we.toNat + cti.toNat).testBit 3 = we := testBit_three_of_div (by omega)
  have hlow : (16 + 8 * we.toNat + cti.toNat) % 8 = cti.toNat := by omega
  calc decode ⟨.bus, 16 + 8 * we.toNat + cti.toNat, .bus o⟩
      = decodeBus (16 + 8 * we.toNat + cti.toNat) (.bus o) := rfl
    _ = decodeBusRequest we cti.toNat o := by rw [decodeBus_bus (by omega) (by omega), hbit, hlow]

/-- A bus operation has the code of the request it shows, and the row of the table for that request is the operation. -/
theorem encode_of_requestOf {i : Instr} {we : Bool} {cti : BitVec 3} {o : BusOperands}
    (h : requestOf i = some (we, cti, o)) :
    encode i = ⟨.bus, 16 + 8 * we.toNat + cti.toNat, .bus o⟩ ∧ decodeBusRequest we cti.toNat o = .ok i := by
  cases i
  case busRdClassic | busRdBurst | busRdEnd | busRdRsvd001 | busRdRsvd011 | busRdRsvd100 | busRdRsvd101 | busRdRsvd110
      | busWrClassic | busWrBurst | busWrEnd | busWrRsvd001 | busWrRsvd011 | busWrRsvd100 | busWrRsvd101
      | busWrRsvd110 =>
    cases h
    exact ⟨rfl, rfl⟩
  all_goals exact nomatch h

theorem decode_encode_of_requestOf {i : Instr} {we : Bool} {cti : BitVec 3} {o : BusOperands}
    (h : requestOf i = some (we, cti, o)) : decode (encode i) = .ok i := by
  obtain ⟨hcode, hrow⟩ := encode_of_requestOf h
  rw [hcode, decode_busRequest, hrow]

/-- Settles O1: the command words by their fields, `BUS.NOP` by its sum, an undefined register by its two indices; the
codes of all other operations are closed but for don't-care bits, one row of a port's table each. -/
theorem decodeOfEncode : Obligations.DecodeOfEncode := by
  intro i hwf
  cases i
  case caRd row col => exact decode_encodeCa true row col
  case caWr row col => exact decode_encodeCa false row col
  case busNop we cti => exact decode_encode_busNop we cti
  case busRdClassic | busRdBurst | busRdEnd | busRdRsvd001 | busRdRsvd011 | busRdRsvd100 | busRdRsvd101 | busRdRsvd110
      | busWrClassic | busWrBurst | busWrEnd | busWrRsvd001 | busWrRsvd011 | busWrRsvd100 | busWrRsvd101
      | busWrRsvd110 =>
    exact decode_encode_of_requestOf rfl
  case csrWrUndef e idx v | csrRdUndef e idx =>
    obtain rfl | rfl : idx = 6 ∨ idx = 7 := by simpa [Instr.WellFormed] using hwf
    all_goals rfl
  case dlyHold b | cdcwIdle _ b _ | cdcrEmpty _ b => cases b <;> rfl
  case dlyLoad b c | cdcwReset _ b c _ | cdcrReset _ b c => cases b <;> cases c <;> rfl
  all_goals rfl

/-- Settles O3: each word is the encoding of the operation it stands for. -/
theorem wordsOfTheTablesDecode : Obligations.WordsOfTheTablesDecode :=
  ⟨decodeOfEncode (.caRd 1 1) rfl, decodeOfEncode (.caWr 0x2AF37 2) rfl,
    decodeOfEncode (.busRdBurst ⟨0x20, 0b0011, 7⟩) rfl, decodeOfEncode (.csrWrEnable .reader 1) rfl,
    decodeOfEncode .dlyDec rfl, decodeOfEncode .fsmWPrep rfl, decodeOfEncode (.engActive .writer) rfl,
    decodeOfEncode (.strmUnderflow .writer 5) rfl, decodeOfEncode (.cdcwPush 1 0xD0) rfl,
    decodeOfEncode (.cdcrWait 0) rfl⟩

/-! ### Encoding what was decoded -/

/-- An operation that the answer `r` gives is well-formed and has the word `w`. -/
def Reencodes (w : OpWord) (r : Except DecodeError Instr) : Prop :=
  ∀ i, r = .ok i → i.WellFormed = true ∧ encode i = w

theorem reencodes_error {w : OpWord} {err : DecodeError} : Reencodes w (.error err) := nofun

theorem reencodes_ok {w : OpWord} {i : Instr} (hwf : i.WellFormed = true) (h : encode i = w) : Reencodes w (.ok i) := by
  rintro _ ⟨⟩
  exact ⟨hwf, h⟩

theorem reencodes_decodeCa (code : Nat) (ops : Operands) :
    Reencodes ⟨.ca, code, ops⟩ (decode ⟨.ca, code, ops⟩) := by
  by_cases hwide : code ≥ 2 ^ 48
  · simpa only [decode, decodeCa, if_pos hwide] using reencodes_error
  by_cases hops : ops = .none
  · subst hops
    obtain ⟨v, rfl⟩ : ∃ v : CommandWord, v.toNat = code :=
      ⟨BitVec.ofNatLT code (Nat.lt_of_not_le hwide), BitVec.toNat_ofNatLT code _⟩
    by_cases hok : reservedBitsOk v
    · have hfields := encodeCa_fields hok
      rw [decode_ca_of_reservedBitsOk hok]
      cases hread : isReadCommand v <;> rw [hread] at hfields
      · exact reencodes_ok rfl (by rw [if_neg (by decide), encode, hfields])
      · exact reencodes_ok rfl (by rw [if_pos rfl, encode, hfields])
    · rw [decode_ca_eq_notACommandWord_iff v |>.mpr hok]
      exact reencodes_error
  · simpa only [decode, decodeCa, if_neg hwide, if_pos hops] using reencodes_error

theorem reencodes_decodeBusRequest (o : BusOperands) : ∀ (we : Bool) (cti : Nat),
    Reencodes ⟨.bus, 16 + 8 * we.toNat + cti, .bus o⟩ (decodeBusRequest we cti o)
  | false, 0 | false, 1 | false, 2 | false, 3 | false, 4 | false, 5 | false, 6 | false, 7
  | true, 0 | true, 1 | true, 2 | true, 3 | true, 4 | true, 5 | true, 6 | true, 7 => reencodes_ok rfl rfl
  | false, _ + 8 | true, _ + 8 => reencodes_error

/-- Bits 4, 3 and 2:0 of a code of format `BUS` make it up (`30_encoding.md` R85). -/
theorem reencodes_decodeBus (code : Nat) (ops : Operands) : Reencodes ⟨.bus, code, ops⟩ (decodeBus code ops) := by
  have hwe : (code.testBit 3).toNat = code / 8 % 2 := Nat.toNat_testBit code 3
  unfold decodeBus
  split
  next => exact reencodes_error
  next hwide =>
    split
    next hnop =>
      have hcode : 8 * (code.testBit 3).toNat + (BitVec.ofNat 3 code).toNat = code := by
        rw [hwe, BitVec.toNat_ofNat]; omega
      split
      next => exact reencodes_ok rfl (by rw [encode, hcode])
      next => exact reencodes_error
    next hreq =>
      have hcode : 16 + 8 * (code.testBit 3).toNat + code % 8 = code := by omega
      split
      next o => simpa only [hcode] using reencodes_decodeBusRequest o (code.testBit 3) (code % 8)
      next => exact reencodes_error

theorem reencodes_decodeCsrWrite (e : EngineId) (v : Word) : ∀ idx : Nat,
    Reencodes ⟨.csr e, 8 + idx, .data v⟩ (decodeCsrWrite e idx v)
  | 0 | 1 | 2 | 3 | 4 | 5 | 6 | 7 => reencodes_ok rfl rfl
  | _ + 8 => reencodes_error

theorem reencodes_decodeCsrRead (e : EngineId) : ∀ idx : Nat, Reencodes ⟨.csr e, idx, .none⟩ (decodeCsrRead e idx)
  | 0 | 1 | 2 | 3 | 4 | 5 | 6 | 7 => reencodes_ok rfl rfl
  | _ + 8 => reencodes_error

theorem reencodes_decodeCsr (e : EngineId) (code : Nat) (ops : Operands) :
    Reencodes ⟨.csr e, code, ops⟩ (decodeCsr e code ops) := by
  unfold decodeCsr
  split
  next => exact reencodes_error
  next =>
    split
    next =>
      split
      next => exact reencodes_decodeCsrRead e code
      next => exact reencodes_error
    next hwrite =>
      have hcode : 8 + (code - 8) = code := by omega
      split
      next v => simpa only [hcode] using reencodes_decodeCsrWrite e v (code - 8)
      next => exact reencodes_error

theorem reencodes_decodeDly : ∀ (code : Nat) (ops : Operands), Reencodes ⟨.dly, code, ops⟩ (decodeDly code ops)
  | 0, .none | 1, .none | 2, .none | 3, .none | 4, .none | 5, .none | 6, .none | 7, .none => reencodes_ok rfl rfl
  | _ + 8, .none | _, .bus _ | _, .data _ | _, .payload _ | _, .call _ _ | _, .level _ => reencodes_error

theorem reencodes_decodeFsm (code : Nat) (ops : Operands) : Reencodes ⟨.fsm, code, ops⟩ (decodeFsm code ops) := by
  match code, ops with
  | 0, .none | 1, .none | 2, .none | 3, .none | 4, .none | 5, .none | 6, .none | 7, .none | 8, .none | 9, .none
  | 10, .none | 11, .none => exact reencodes_ok rfl rfl
  | n + 12, .none =>
    change Reencodes _ (if n + 12 < 16 then _ else _)
    split <;> exact reencodes_error
  | _, .bus _ | _, .data _ | _, .payload _ | _, .call _ _ | _, .level _ => exact reencodes_error

theorem reencodes_decodeEng (e : EngineId) : ∀ (code : Nat) (ops : Operands),
    Reencodes ⟨.eng e, code, ops⟩ (decodeEng e code ops)
  | 0, .none | 1, .none => reencodes_ok rfl rfl
  | _ + 2, .none | _, .bus _ | _, .data _ | _, .payload _ | _, .call _ _ | _, .level _ => reencodes_error

theorem reencodes_decodeStrm (e : EngineId) : ∀ (code : Nat) (ops : Operands),
    Reencodes ⟨.strm e, code, ops⟩ (decodeStrm e code ops)
  | 0, .data _ | 1, .data _ | 2, .data _ | 3, .data _ => reencodes_ok rfl rfl
  | _ + 4, .data _ | _, .none | _, .bus _ | _, .payload _ | _, .call _ _ | _, .level _ => reencodes_error

theorem reencodes_decodeCdcw (q : Nat) : ∀ (code : Nat) (ops : Operands),
    Reencodes ⟨.cdcw q, code, ops⟩ (decodeCdcw q code ops)
  | 0, .payload _ | 1, .payload _ | 2, .payload _ | 3, .payload _ | 4, .payload _ | 5, .payload _ | 6, .payload _
  | 7, .payload _ => reencodes_ok rfl rfl
  | _ + 8, .payload _ | _, .none | _, .bus _ | _, .data _ | _, .call _ _ | _, .level _ => reencodes_error

theorem reencodes_decodeCdcr (q : Nat) : ∀ (code : Nat) (ops : Operands),
    Reencodes ⟨.cdcr q, code, ops⟩ (decodeCdcr q code ops)
  | 0, .none | 1, .none | 2, .none | 3, .none | 4, .none | 5, .none | 6, .none | 7, .none => reencodes_ok rfl rfl
  | _ + 8, .none | _, .bus _ | _, .data _ | _, .payload _ | _, .call _ _ | _, .level _ => reencodes_error

/-- An event has no code of its own, and each has its one kind of operands (`30_encoding.md` R103). -/
theorem reencodes_decodeEvt (v : Event) (code : Nat) (ops : Operands) :
    Reencodes ⟨.evt v, code, ops⟩ (decodeEvt v code ops) := by
  unfold decodeEvt
  split
  next => exact reencodes_error
  next hcode =>
    obtain rfl := not_not.mp hcode
    cases v <;> cases ops
    case shiftOut.call | phyIdle.none | sampleIn.none | startLocal.none | startExt.none | pulseSend.level
        | pulseSync.none | sysReset.none =>
      exact reencodes_ok rfl rfl
    all_goals exact reencodes_error

/-- Settles O2: port by port, the decoder's answer encodes to the word it was read from. -/
theorem encodeOfDecode : Obligations.EncodeOfDecode := by
  intro ⟨port, code, ops⟩ i h
  cases port with
  | ca => exact reencodes_decodeCa code ops i h
  | bus => exact reencodes_decodeBus code ops i h
  | csr e => exact reencodes_decodeCsr e code ops i h
  | dly => exact reencodes_decodeDly code ops i h
  | fsm => exact reencodes_decodeFsm code ops i h
  | eng e => exact reencodes_decodeEng e code ops i h
  | strm e => exact reencodes_decodeStrm e code ops i h
  | cdcw q => exact reencodes_decodeCdcw q code ops i h
  | cdcr q => exact reencodes_decodeCdcr q code ops i h
  | evt v => exact reencodes_decodeEvt v code ops i h

end Sys2Proof.Machine

/-! SUPPORT. The system reset: what it leaves of every register, whatever operation the cycle has, and the device's
reset line, which a reset raises and the first tick without one releases (`70_reset_and_hazards.md` R320, R326). -/

namespace Sys2Proof.Machine

/-! ### The registers right after reset -/

theorem pointers_of_mem_resetQueues {q : Queue} (h : q ∈ resetQueues) :
    q.wptr = 0 ∧ q.rptr = 0 ∧ q.rptrW1 = 0 ∧ q.rptrW2 = 0 ∧ q.wptrR1 = 0 ∧ q.wptrR2 = 0 := by
  obtain rfl | rfl : q = _ ∨ q = _ := by simpa [resetQueues] using h
  all_goals exact ⟨rfl, rfl, rfl, rfl, rfl, rfl⟩

theorem registers_of_mem_resetCrossings {c : Crossing} (h : c ∈ resetCrossings) :
    c.tgl = false ∧ c.t1 = false ∧ c.t2 = false ∧ c.t3 = false ∧ c.stretchCnt = 0 := by
  obtain rfl | rfl : c = _ ∨ c = _ := by simpa [resetCrossings] using h
  all_goals exact ⟨rfl, rfl, rfl, rfl, rfl⟩

/-- Settles O8: the table of `10_state.md` section 7, register by register. -/
theorem resetHoldsTheTable : Obligations.ResetHoldsTheTable :=
  ⟨rfl, rfl, rfl, rfl, rfl, rfl, rfl, rfl, rfl, rfl, rfl, rfl, rfl, fun e => by cases e <;> rfl,
    fun _ => pointers_of_mem_resetQueues, fun _ => registers_of_mem_resetCrossings⟩

/-! ### The operations of the `sys` domain -/

/-- Operation `i` answers, by one `sys` tick of the state with the operation on its port. -/
def AnswersBySysTick (i : Instr) (s : State) : Prop :=
  ∃ u call, OnPort i s u ∧ exec i s = .next (sysTickCalling call u)

section SysOps
variable {i : Instr} {s t u : State}

theorem answersBySysTick_of_calling {call : Option ShiftCall} (hx : exec i s = .next (sysTickCalling call u))
    (hu : OnPort i s u) : AnswersBySysTick i s :=
  ⟨u, call, hu, hx⟩

theorem answersBySysTick_of_sysTick (hx : exec i s = .next (sysTick u)) (hu : OnPort i s u) : AnswersBySysTick i s :=
  answersBySysTick_of_calling hx hu

/-- An operation of the `sys` domain always answers (`00_scope.md` R6). -/
theorem answersBySysTick_of_isSysOp (h : isSysOp i = true) : AnswersBySysTick i s := by
  cases i
  case caRd | caWr | busNop | busRdClassic | busRdBurst | busRdEnd | busRdRsvd001 | busRdRsvd011 | busRdRsvd100
      | busRdRsvd101 | busRdRsvd110 | busWrClassic | busWrBurst | busWrEnd | busWrRsvd001 | busWrRsvd011
      | busWrRsvd100 | busWrRsvd101 | busWrRsvd110 | dlyLoad | dlyInc | dlyDec | dlyHold =>
    exact answersBySysTick_of_sysTick rfl (onPort_otherLines rfl rfl rfl rfl)
  case csrWrStartAddress | csrWrTransferSize | csrWrBurstSize | csrWrDone | csrWrEnable | csrWrReset | csrWrUndef
      | csrRdStartAddress | csrRdTransferSize | csrRdBurstSize | csrRdDone | csrRdEnable | csrRdReset | csrRdUndef
      | dmaStartLocal =>
    exact answersBySysTick_of_sysTick rfl (onPort_putCsr rfl)
  case fsmIdle | fsmCmd | fsmRwdsWait | fsmReadStart | fsmReadAck | fsmReadBurst | fsmLatencyWrite | fsmWPrep
      | fsmWriteBurst | fsmWriteFinish | fsmTimeout | fsmCleanup =>
    exact answersBySysTick_of_sysTick rfl (onPort_setFsmState rfl rfl)
  case engIdle | engActive => exact answersBySysTick_of_sysTick rfl (onPort_setEst rfl rfl rfl)
  case strmXfer | strmUnderflow | strmOverflow | strmIdle | dmaStartExt =>
    exact answersBySysTick_of_sysTick rfl (onPort_engineLines rfl rfl)
  case phyShiftout | phyIdle => exact answersBySysTick_of_calling rfl (onPort_self rfl)
  case phySamplein => exact answersBySysTick_of_sysTick rfl (onPort_self rfl)
  case sysReset => exact answersBySysTick_of_sysTick rfl (onPort_lines (fun hne => absurd rfl hne) fun _ => rfl)
  all_goals exact nomatch h

/-- With `rst` = 1, by the line or by `SYS.RESET`, it answers by the reset tick (`70_reset_and_hazards.md` R320). -/
theorem exec_of_reset (h : isSysOp i = true) (hr : s.inp.rst = true ∨ i = .sysReset) :
    ∃ u, OnPort i s u ∧ u.inp.rst = true ∧ exec i s = .next (resetTick u) := by
  by_cases hi : i = .sysReset
  · subst hi
    exact ⟨s.putReset, onPort_lines (fun hne => absurd rfl hne) fun _ => rfl, rfl, rfl⟩
  · obtain ⟨u, call, hu, hx⟩ := answersBySysTick_of_isSysOp (s := s) h
    have hrst : u.inp.rst = true := (hu.rst hi).trans (hr.resolve_right hi)
    exact ⟨u, hu, hrst, by rw [hx, sysTickCalling_reset call u hrst]⟩

end SysOps

/-! ### The `sys` sides of queues and crossings at a reset (`70_reset_and_hazards.md` R322) -/

section Sides
variable {s : State} {n : Nat}

theorem queueSysTick_reset_write {q : Queue} (hrst : s.inp.rst = true) (hside : q.cfg.sysSide = .write) :
    queueSysTick s n q = writeResetTick q := by
  simp only [queueSysTick, hside, queueSideRst, hrst, Bool.true_or, queueWriteTick, if_true]

theorem queueSysTick_reset_read {q : Queue} (hrst : s.inp.rst = true) (hside : q.cfg.sysSide = .read) :
    queueSysTick s n q = readResetTick q := by
  simp only [queueSysTick, hside, queueSideRst, hrst, Bool.true_or, queueReadTick, if_true]

/-- A side reset keeps the storage, whichever side it is (`46_cdc_queue.md` R266, R267). -/
theorem queueSysTick_reset_mem (q : Queue) (hrst : s.inp.rst = true) : (queueSysTick s n q).mem = q.mem := by
  cases hside : q.cfg.sysSide
  · rw [queueSysTick_reset_write hrst hside]; rfl
  · rw [queueSysTick_reset_read hrst hside]; rfl

theorem crossingSysTick_reset_source {c : Crossing} (hrst : s.inp.rst = true) (hside : c.sysSide = .source) :
    crossingSysTick s n c = { c with tgl := false } := by
  simp only [crossingSysTick, hside, hrst, crossingSourceTick, if_true]

theorem crossingSysTick_reset_dest {c : Crossing} (hrst : s.inp.rst = true) (hside : c.sysSide = .dest) :
    crossingSysTick s n c = { c with t1 := false, t2 := false, t3 := false, stretchCnt := 0 } := by
  simp only [crossingSysTick, hside, hrst, crossingDestTick, if_true]

theorem resetTick_queue (s : State) (n : Nat) :
    (resetTick s).queues[n]? = (s.queues[n]?).map (queueSysTick s n) := by
  rw [resetTick_queues, queuesSysTick_getElem?, Nat.zero_add]

theorem resetTick_crossing (s : State) (n : Nat) :
    (resetTick s).crossings[n]? = (s.crossings[n]?).map (crossingSysTick s n) := by
  rw [resetTick_crossings, crossingsSysTick_getElem?, Nat.zero_add]

end Sides

/-- Settles O9: every operation answers by the tick with reset, which does not look at what the operation puts on its
port. -/
theorem resetOverridesEveryOperation : Obligations.ResetOverridesEveryOperation := by
  intro i s hsys hr
  obtain ⟨u, hu, hrst, hx⟩ := exec_of_reset hsys hr
  refine ⟨resetTick u, hx, rfl, rfl, fun e => ?engine, hu.devMem, hu.params, hu.script, fun n q hq => ?queue,
    fun n c hc => ?crossing⟩
  case engine => rw [resetTick_engine]; cases e <;> rfl
  case queue =>
    refine ⟨queueSysTick u n q, by rw [resetTick_queue, hu.queues, hq, Option.map_some], queueSysTick_reset_mem q hrst,
      queueSysTick_cfg u n q, fun hside => ?write, fun hside => ?read⟩
    case write =>
      rw [queueSysTick_reset_write hrst hside]
      exact ⟨rfl, rfl, rfl, rfl, rfl, rfl⟩
    case read =>
      rw [queueSysTick_reset_read hrst hside]
      exact ⟨rfl, rfl, rfl, rfl, rfl, rfl⟩
  case crossing =>
    exact ⟨crossingSysTick u n c, by rw [resetTick_crossing, hu.crossings, hc, Option.map_some],
      crossingSysTick_reset_source hrst, crossingSysTick_reset_dest hrst⟩

/-! ### The device's reset line (`70_reset_and_hazards.md` R326) -/

section DeviceReset
variable {i : Instr} {s t u : State}

theorem sysTickCalling_devRst (call : Option ShiftCall) (s : State) :
    (sysTickCalling call s).fsm.devRst = s.inp.rst := by
  cases hrst : s.inp.rst
  · rw [sysTickCalling_run call s hrst, runTickCalling_fsm, fsmAfter, everyTick_devRst]
  · rw [sysTickCalling_reset call s hrst, resetTick_fsm]
    rfl

theorem OnPort.devRst (h : OnPort i s u) : u.fsm.devRst = s.fsm.devRst := by
  rw [h.fsm]

/-- A tick of a foreign domain leaves the line; a `sys` tick puts it to the value of `rst`. -/
theorem rst_of_devRst_rises (h : exec i s = .next t) (hlow : s.fsm.devRst = false) (hhigh : t.fsm.devRst = true) :
    s.inp.rst = true ∨ i = .sysReset := by
  obtain ⟨u, hu, ⟨call, rfl⟩ | ⟨d, rfl⟩⟩ := exec_cases h
  · rw [sysTickCalling_devRst] at hhigh
    by_cases hi : i = .sysReset
    · exact .inr hi
    · exact .inl ((hu.rst hi).symm.trans hhigh)
  · rw [domainTick_fsm, hu.devRst, hlow] at hhigh
    cases hhigh

end DeviceReset

/-- Settles O10: after a `sys` tick the line has the value that `rst` had in its cycle, and no other tick moves it. -/
theorem deviceResetReleasedOnce : Obligations.DeviceResetReleasedOnce := by
  refine ⟨fun i s hsys hrst hi => ?released, fun s => ⟨sysTick s.putReset, rfl, ?raised⟩,
    fun i s t => rst_of_devRst_rises⟩
  case released =>
    obtain ⟨u, call, hu, hx⟩ := answersBySysTick_of_isSysOp (s := s) hsys
    exact ⟨_, hx, by rw [sysTickCalling_devRst, hu.rst hi, hrst]⟩
  case raised => rw [← sysTickCalling_fsmNow, sysTickCalling_devRst, putReset_inp_rst]

end Sys2Proof.Machine
